-- ==== Sys2Proof/Word.lean ====
section
/-! DEFINITION. The words and numbers of the guide: octets, times, codes, and saturating counts. -/

namespace Sys2Proof

/-- An octet of a frame or of a module-link message (00, "Units on the wire"). -/
abbrev Octet := BitVec 8

/-- A time of the station's own time base, in units of 1/96 ms: every figure of the guide is a whole
number of them (00 "Times"; log 1). -/
abbrev Time := Nat

/-- `ms n` is `n` milliseconds. -/
def ms (n : Nat) : Time := 96 * n

/-- One word time of a lane half, 0.25 ms (07, 7.1). -/
def wordTime : Time := 24

/-- A network code, 0..999,999 (00 "Value ranges"). -/
abbrev Code := Nat

/-- A station number, 0..31, or any sender octet as it was heard. -/
abbrev Station := Nat

/-- A tag, 0..255, followed by 0 after 255 (00 "Value ranges"). -/
abbrev Tag := BitVec 8

/-- A lane mask: bit n − 1 is set when lane n is in the mask (04, 4.8). -/
abbrev LaneMask := BitVec 6

/-- A count that saturates at the largest value of its width. -/
def satInc {w : Nat} (x : BitVec w) : BitVec w := if x = BitVec.allOnes w then x else x + 1

/-- A saturating addition of a number of events. -/
def satAdd {w : Nat} (x : BitVec w) (n : Nat) : BitVec w :=
  if x.toNat + n < 2 ^ w then BitVec.ofNat w (x.toNat + n) else BitVec.allOnes w

end Sys2Proof
end

