-- ==== Sys2Proof/Syntax.lean ====
section
/-! DEFINITION. The commands the station takes: one constructor of `Instr` for each row of the opcode table,
with the operands the row's rule reads. -/

namespace Sys2Proof

/-- A module position, and the carriage slot of the same letter (00, 05). -/
inductive Mod where | a | b
  deriving DecidableEq, Repr

/-- A half of a voice lane (07, 7.1). -/
inductive Half where | a | b
  deriving DecidableEq, Repr

/-- A voice lane, 1..6 (07, 7.1). -/
inductive Lane where | l1 | l2 | l3 | l4 | l5 | l6
  deriving DecidableEq, Repr

/-- A probe engine, 0..2 (07, 7.3). -/
inductive EngineId where | e0 | e1 | e2
  deriving DecidableEq, Repr

/-- A prompt player: PROMPT-S, PROMPT-A or PROMPT-B (08, 8.3). -/
inductive PlayerId where | s | a | b
  deriving DecidableEq, Repr

/-- A destination of the Carriage Switch (08, 8.1). -/
inductive Dest where
  | speaker
  | modTx (m : Mod)
  | lane (l : Lane)
  deriving DecidableEq, Repr

/-- The seventeen strap pins as read at the end of a full reset (11, 11.1). -/
structure Straps where
  station : BitVec 5
  sectionCode : BitVec 8
  modA : Bool
  modB : Bool
  offer : Bool
  supplySet : Bool
  deriving DecidableEq, Repr

/-- A received control-band frame less its kind octet, which the command's row gives (10, 10.1). -/
structure Rx where
  sender : Octet
  target : Octet
  payload : List Octet
  deriving DecidableEq, Repr

/-- What causes a full reset (11). A power-on is taken when the supply reaches the chip's power-on level. -/
inductive ResetCause where | powerOn | pin
  deriving DecidableEq, Repr

/-- The beginning of a full reset: the time at which it is taken, and its cause (11). -/
structure ResetEvent where
  time : Time
  cause : ResetCause
  deriving DecidableEq, Repr

/-- An octet heard on a module link, with the time at which it is heard (R99). -/
structure LinkOctet where
  heardAt : Time
  octet : Octet
  deriving DecidableEq, Repr

/-- One entry of a SCAN-LIST report as sent (06, 6.1). -/
structure ScanEntry where
  code : BitVec 24
  quality : Octet
  flags : Octet
  deriving DecidableEq, Repr

/-- An edge of a bit clock at a checker (R136). -/
inductive ClockEdge where
  /-- a local bit clock -/
  | ownBit
  /-- a received bit clock -/
  | receivedBit
  deriving DecidableEq, Repr

/-- One word received by a checker (R132 to R136; log 8). -/
structure WordIn where
  engine : EngineId
  /-- the 32 bits received, bit 0 the first on the line -/
  word : BitVec 32
  /-- the local bit clocks for which the half carried no carrier since the last word -/
  gapBits : Nat
  /-- the bit clocks of both kinds while carrier was heard since the last word, in the order taken, but for those brought
  before the word was whole -/
  edges : List ClockEdge
  deriving DecidableEq, Repr

/-- What a half in reception brings to its checker: a whole word, or bit clocks of a word that is not whole, or not yet (R136;
log 8). -/
inductive LineIn where
  | word (i : WordIn)
  | clocks (e : EngineId) (edges : List ClockEdge)
  deriving DecidableEq, Repr

/-- Why a frame in reception is discarded (R163). -/
inductive RxError where
  /-- a stop bit is heard at the dominant level -/
  | badStopBit
  /-- the length octet is above 40 -/
  | lengthAbove40 (len : Octet)
  /-- the band stays recessive for 1 ms before the frame is complete -/
  | truncated
  /-- the complete frame, all its octets and its check, whose check is wrong -/
  | badCheck (octets : List Octet)
  deriving DecidableEq, Repr

/-- The commands: the rows of the opcode table, in its order. The first operand of each gives the time at which the
event is taken (log 1). -/
inductive Instr where
  | fullReset (e : ResetEvent)
  | fullResetEnd (t : Time) (pins : Straps)
  | offerFirstDue (t : Time)
  | offerPeriodicDue (t : Time)
  | changeDeadline (t : Time)
  | offerSpacingEnd (t : Time)
  | offer (t : Time) (f : Rx)
  | offerWithdrawal (t : Time) (f : Rx)
  | offerEntryExpiry (t : Time) (station : Station)
  | buttonSample (t : Time) (pressed : Bool)
  | buttonPress (t : Time)
  | buttonRelease (t : Time)
  | retryTime (t : Time)
  | answerDeadline (t : Time)
  | silenceDeadline (t : Time)
  | regrantWait (t : Time)
  | searchDeadline (t : Time)
  | failedUntil (t : Time)
  | grant (t : Time) (f : Rx)
  | wait (t : Time) (f : Rx)
  | refuse (t : Time) (f : Rx)
  | progress (t : Time) (f : Rx)
  | releaseFromUplink (t : Time) (f : Rx)
  | releaseFromOrigin (t : Time) (f : Rx)
  | releaseRestart (t : Time) (f : Rx)
  | claimNew (t : Time) (f : Rx)
  | claimRejoin (t : Time) (f : Rx)
  | waitRefresh (t : Time) (origin : Station) (tag : Tag)
  | queueEntryExpiry (t : Time) (origin : Station) (tag : Tag)
  | connect (t : Time) (f : Rx)
  | connectDeadline (t : Time) (m : Mod)
  | ringDeadline (t : Time) (m : Mod)
  | rejoinDeadline (t : Time) (m : Mod)
  | linkMessageDiscarded (t : Time) (m : Mod) (hunted message : List LinkOctet)
  | linkMessageTimeout (t : Time) (m : Mod) (octets : List LinkOctet)
  | ready (t : Time) (m : Mod)
  | scanList (t : Time) (m : Mod) (entries : List ScanEntry)
  | selected (t : Time) (m : Mod) (code : BitVec 24) (result : Octet)
  | accepted (t : Time) (m : Mod)
  | rejected (t : Time) (m : Mod)
  | ringing (t : Time) (m : Mod)
  | answered (t : Time) (m : Mod)
  | ended (t : Time) (m : Mod) (reason : Octet)
  | aborted (t : Time) (m : Mod)
  | quality (t : Time) (m : Mod) (q : Octet)
  | fault (t : Time) (m : Mod)
  | scanTimeout (t : Time) (m : Mod)
  | selectTimeout (t : Time) (m : Mod)
  | dialTimeout (t : Time) (m : Mod)
  | hangupTimeout (t : Time) (m : Mod)
  | abortTimeout (t : Time) (m : Mod)
  | powerOnTime (t : Time) (m : Mod)
  | poweringDeadline (t : Time) (m : Mod)
  | rescanDue (t : Time) (m : Mod)
  | refreshDue (t : Time) (m : Mod)
  | progressDeadline (t : Time) (m : Mod)
  | penaltyEnd (t : Time) (m : Mod) (code : Code)
  | carrierHeard (t : Time) (l : Lane) (h : Half)
  | carrierNotHeard (t : Time) (l : Lane) (h : Half)
  | laneFree (t : Time) (l : Lane)
  | quarantineEnd (t : Time) (l : Lane)
  | generatorDone (t : Time) (e : EngineId)
  | settleEnd (t : Time) (e : EngineId)
  | probeWordReceived (t : Time) (w : LineIn)
  | steadyReached (t : Time) (w : WordIn)
  | nosync (t : Time) (w : WordIn)
  | stuck (t : Time) (w : WordIn)
  | checkerGapReset (t : Time) (e : EngineId)
  | checkComplete (t : Time) (w : WordIn)
  | probeTimeout (t : Time) (e : EngineId)
  | laneLoss (t : Time) (l : Lane)
  | holdUntilEnd (t : Time) (d : Dest)
  | promptPlayEnd (t : Time) (p : PlayerId)
  | promptGapEnd (t : Time) (p : PlayerId)
  | identToneEnd (t : Time)
  | identGapEnd (t : Time)
  | lampOnTimeEnd (t : Time)
  | lampPeriodEnd (t : Time)
  | periodTick (t : Time)
  | supplySample (t : Time) (millivolts : Nat)
  | supplyStateChange (t : Time) (millivolts : Nat)
  | bandActivity (t : Time)
  | bandQuiet (t : Time)
  | sendStart (t : Time)
  | frameSent (t : Time)
  | collision (t : Time)
  | frameDiscarded (t : Time) (e : RxError)
  | duplicateNumberFrame (t : Time)
  | unknownKindFrame (t : Time) (kind : Octet) (f : Rx)
  | reportFrameHeard (t : Time) (f : Rx)
  | statusQueryGeneral (t : Time) (f : Rx)
  | statusQueryCounters (t : Time) (f : Rx)
  | statusQueryModules (t : Time) (f : Rx)
  | statusQueryLastTest (t : Time) (f : Rx)
  | testOrderGenerate (t : Time) (f : Rx)
  | testOrderCheck (t : Time) (f : Rx)
  | testOrderStop (t : Time) (f : Rx)
  | testGenerationEnd (t : Time)
  | testCheckComplete (t : Time) (w : WordIn)
  | testTimeout (t : Time)
  | restart (t : Time) (f : Rx)
  | avoidEntryLeave (t : Time) (station : Station)
  deriving DecidableEq, Repr

end Sys2Proof
end

