-- ==== Sys2Proof/Machine/State.lean ====
section
/-! DEFINITION. The station's state, block by block, as plain data, and its value right after a full reset. -/

namespace Sys2Proof.Machine

/-! ## Fixed families of like things -/

/-- One value for each module position. -/
structure PerMod (α : Type) where
  a : α
  b : α
  deriving DecidableEq, Repr

/-- One value for each lane. -/
structure PerLane (α : Type) where
  l1 : α
  l2 : α
  l3 : α
  l4 : α
  l5 : α
  l6 : α
  deriving DecidableEq, Repr

/-- One value for each probe engine. -/
structure PerEngine (α : Type) where
  e0 : α
  e1 : α
  e2 : α
  deriving DecidableEq, Repr

/-- One value for each prompt player. -/
structure PerPlayer (α : Type) where
  s : α
  a : α
  b : α
  deriving DecidableEq, Repr

/-! ## Names shared by the blocks -/

/-- The supply state (09, 9.3). -/
inductive Supply where | normal | reserve | low
  deriving DecidableEq, Repr

/-- What owns a lane, an engine, a route or a prompt (07, 7.1; 08, 8.1). -/
inductive Owner where
  | origin
  | carriage (m : Mod)
  | laneTest
  deriving DecidableEq, Repr

/-- A call's way to a network (00 "Terms"). -/
inductive PathKind where | loc | peer
  deriving DecidableEq, Repr

/-- A stage of a carried call, as PROGRESS reports it (05, 5.6). -/
inductive Stage where | dialing | reselecting | ringing | answered
  deriving DecidableEq, Repr

/-- The outcome of a probe (07, R137; 05, 5.6). -/
inductive ProbeOutcome where | pass | errors | drift | stuck | nosync | timeout
  deriving DecidableEq, Repr

/-! ## Frames (10) -/

/-- The kinds of control-band frame (10, 10.1). -/
inductive FrameKind where
  | grant | wait | refuse | connect | progress | release | claim | offer
  | statusQuery | statusReport | testOrder | testReport | restart
  deriving DecidableEq, Repr

/-- A frame as handed to the band: the header less the sender, which is the own number, and the payload. -/
structure Frame where
  kind : FrameKind
  target : Octet
  payload : List Octet
  deriving DecidableEq, Repr

/-- The classes of the transmit queue (10, 10.3). -/
inductive FrameClass where | call | offer | service
  deriving DecidableEq, Repr

/-! ## Offer Builder and Offer Table (01) -/

/-- The state a module summary gives (R2). -/
inductive SummaryState where | free | busy | searching | fault
  deriving DecidableEq, Repr

/-- A module summary (R2, R3). -/
structure Summary where
  state : SummaryState
  best : Option Code
  quality : Nat
  usable : Nat
  deriving DecidableEq, Repr

/-- The station's own offer content (01, 1.1). -/
structure Content where
  offering : Bool
  supply : Supply
  depth : Nat
  a : Option Summary
  b : Option Summary
  deriving DecidableEq, Repr

inductive OfferPhase where | silent | starting | active | withdrawn
  deriving DecidableEq, Repr

/-- The kind of an OFFER whose hand-over waits for the spacing (R9). -/
inductive DeferredOffer where | periodic | change
  deriving DecidableEq, Repr

/-- The offer schedule record (01, 1.2). -/
structure OfferSchedule where
  phase : OfferPhase
  firstDue : Option Time
  periodicDue : Option Time
  changeDeadline : Option Time
  withdrawalOwed : Bool
  lastHandover : Option Time
  reference : Option Content
  deferred : Option DeferredOffer
  deriving DecidableEq, Repr

/-- An entry of the Offer Table (01, 1.4). -/
structure OfferEntry where
  station : Station
  receivedAt : Time
  supply : Supply
  depth : Nat
  a : Option Summary
  b : Option Summary
  deriving DecidableEq, Repr

/-! ## Call Origin Controller (03) -/

inductive OriginState where
  | idle | seeking | claiming | queued | probing | dialing | connected | recovering | failed
  deriving DecidableEq, Repr

inductive ClaimKind where | new | rejoin
  deriving DecidableEq, Repr

inductive EndReason where | none | farClear | failed | restart
  deriving DecidableEq, Repr

/-- The path of the origin record (03). -/
structure Path where
  kind : PathKind
  station : Station
  module : Option Mod
  lane : Option Lane
  deriving DecidableEq, Repr

/-- An entry of the avoid list (R32). -/
structure AvoidEntry where
  station : Station
  enteredAt : Time
  deriving DecidableEq, Repr

/-- The origin record with its avoid list and the tag counter (03). -/
structure Origin where
  tagCounter : Tag
  tag : Tag
  state : OriginState
  path : Option Path
  claimKind : ClaimKind
  attempts : Nat
  answerDeadline : Option Time
  queuePos : Option Nat
  silenceDeadline : Option Time
  regrantWait : Option Time
  stage : Option Stage
  network : Option Code
  answered : Bool
  searchDeadline : Option Time
  retryTime : Option Time
  /-- R36: the moment at which an event last ended the no-candidate wait, until a claim is placed (log 38) -/
  wokenAt : Option Time
  failedUntil : Option Time
  avoid : List AvoidEntry
  recoveries : BitVec 8
  dropouts : BitVec 16
  pressesIgnored : BitVec 16
  endReason : EndReason
  deriving DecidableEq, Repr

/-! ## Channel Arbiter (04) -/

/-- An entry of the claim queue (04, 4.1). `mask` and `lastWait` are absent for a local claim. -/
structure ClaimEntry where
  origin : Station
  tag : Tag
  loc : Bool
  mask : Option LaneMask
  arrivedAt : Time
  expiresAt : Time
  lastWait : Option Time
  deriving DecidableEq, Repr

/-- Why a claim is refused (04, 4.8). -/
inductive RefuseReason where | noChannel | lowSupply | queueFull | expired | noLane | noRejoin
  deriving DecidableEq, Repr

/-- The reasons of a RELEASE (05, 5.6). -/
inductive ReleaseReason where
  | farClear | netDrop | laneLost | moduleFault | allNetworksFailed | late | abandon | restart
  deriving DecidableEq, Repr

/-! ## Carriage Controller (05) -/

inductive CarriageState where | granted | dialing | ringing | connected | awaitRejoin | clearing
  deriving DecidableEq, Repr

/-- The state a carriage returns to after a rejoin (05). -/
inductive ResumeState where | dialing | ringing | connected
  deriving DecidableEq, Repr

/-- A carriage record (05). Its module is the slot it stands in. -/
structure Carriage where
  origin : Station
  tag : Tag
  kind : PathKind
  lane : Option Lane
  mask : Option LaneMask
  state : CarriageState
  rejoinGrant : Bool
  ownPassed : Bool
  originPassed : Bool
  connectDeadline : Option Time
  regrants : Nat
  tried : List Code
  network : Option Code
  lastStage : Option Stage
  ringHangup : Bool
  answered : Bool
  ringDeadline : Option Time
  rejoinDeadline : Option Time
  resume : Option ResumeState
  dropouts : BitVec 16
  deriving DecidableEq, Repr

/-! ## Radio Module Controller (06) -/

inductive ModuleState where
  | absent | powering | scanning | noService | selecting | ready | refreshing | dialing | ringing | inCall
  | hangingUp | fault | disabled
  deriving DecidableEq, Repr

/-- The orders of the module link (06, 6.1). -/
inductive OrderKind where | scan | select | dial | hangup | abort
  deriving DecidableEq, Repr

/-- The order in flight; `code` is the code ordered, for SELECT (06, 6.2). -/
structure OrderInFlight where
  kind : OrderKind
  deadline : Time
  code : Code
  deriving DecidableEq, Repr

/-- The order in the pending slot (06, 6.2). -/
inductive PendingOrder where
  | scan
  | select (code : Code)
  | dial (tried : List Code)
  deriving DecidableEq, Repr

/-- An entry of a network table (06, 6.5). -/
structure Net where
  code : Code
  quality : Nat
  barred : Bool
  penalisedUntil : Option Time
  deriving DecidableEq, Repr

/-- A module channel record with its network table (06, 6.2). -/
structure Module where
  fitted : Bool
  state : ModuleState
  power : Bool
  powerOnTime : Option Time
  /-- R99: the time at which the position's power last came on; no octet heard before it is read (log 24) -/
  poweredAt : Time
  poweringDeadline : Option Time
  selected : Option Code
  inFlight : Option OrderInFlight
  pendingOrder : Option PendingOrder
  timeouts : Nat
  powerCycles : Nat
  lastScan : Option Time
  rescanDue : Option Time
  progressDeadline : Option Time
  link : Bool
  linkErrors : BitVec 16
  table : List Net
  /-- R100: the module has a call in progress -/
  callInProgress : Bool
  deriving DecidableEq, Repr

/-! ## Lane Controller (07) -/

inductive Occupancy where | free | busy | own
  deriving DecidableEq, Repr

/-- A lane's entry of the lane view, with its supervision (07, 7.1, R138). -/
structure LaneEntry where
  occupancy : Occupancy
  owner : Option Owner
  carrierA : Bool
  carrierB : Bool
  quietSince : Option Time
  quarantineUntil : Option Time
  supervised : Bool
  gapStart : Option Time
  deriving DecidableEq, Repr

inductive GeneratorState where | idle | running | done
  deriving DecidableEq, Repr

inductive CheckerState where | idle | settle | seek | steady | check | ended
  deriving DecidableEq, Repr

/-- A probe engine (07, 7.3). `genSeed` is the generator's register at its start; its register at any later time follows
from it and `genStart`. `seekFrom` is the time at which SETTLE ended, held until the first whole word after it is loaded
(R132, log 52). -/
structure Engine where
  user : Option Owner
  lane : Option Lane
  transmitHalf : Option Half
  receiveHalf : Option Half
  generator : GeneratorState
  genSeed : BitVec 15
  genStart : Time
  checker : CheckerState
  checkStart : Time
  predictor : BitVec 15
  seekLoaded : Bool
  seekFrom : Option Time
  settleFrom : Option Time
  gapFrom : Option Time
  steady : Nat
  restarts : Nat
  compared : Nat
  errors : BitVec 16
  run : Nat
  lastWord : Option (BitVec 32)
  compare : Int
  deriving DecidableEq, Repr

/-! ## Carriage Switch (08) -/

/-- The sources a base route or an overlay can name (08, 8.1). The prompt players and IDENT are overlays. -/
inductive Source where
  | mic
  | modRx (m : Mod)
  | laneRx (l : Lane) (h : Half)
  | silence
  deriving DecidableEq, Repr

/-- The overlay of a destination: its own prompt player, or IDENT (08, 8.1). -/
inductive Overlay where | player | ident
  deriving DecidableEq, Repr

/-- A destination's slot (08, 8.1). -/
structure Slot where
  base : Option Source
  owner : Option Owner
  holdUntil : Option Time
  overlay : Option Overlay
  deriving DecidableEq, Repr

inductive Prompt where | connecting | pleaseWait | reconnecting | callFailed | holdLine
  deriving DecidableEq, Repr

inductive PlayerState where | idle | playing | gap
  deriving DecidableEq, Repr

/-- A prompt player (08, 8.3); its position is the present time less `since`. -/
structure Player where
  state : PlayerState
  owner : Option Owner
  prompt : Option Prompt
  repeats : BitVec 4
  gap : Time
  playsDone : BitVec 4
  since : Time
  deriving DecidableEq, Repr

/-- A request for the identity burst (08, 8.4). -/
structure BurstRequest where
  dest : Mod
  sectionCode : BitVec 8
  origin : Station
  carrier : Station
  deriving DecidableEq, Repr

/-- The identity burst generator (08, 8.4); its position is digit 1..8, tone or gap, and the present time less `since`. -/
structure Ident where
  running : Option BurstRequest
  waiting : Option BurstRequest
  digits : List Nat
  digit : Nat
  inTone : Bool
  since : Time
  deriving DecidableEq, Repr

/-- The Carriage Switch (08). -/
structure Switch where
  speaker : Slot
  modTx : PerMod Slot
  laneTx : PerLane Slot
  gapA : PerLane Bool
  gapB : PerLane Bool
  players : PerPlayer Player
  ident : Ident
  deriving DecidableEq, Repr

/-- What an end signal names (08, R147, R149). -/
inductive Played where
  | prompt (p : Prompt)
  | burst
  deriving DecidableEq, Repr

/-- The reason of an end signal (08, R147). -/
inductive SignalReason where | completed | stopped | replaced | preempted | dropped
  deriving DecidableEq, Repr

/-! ## Caller Panel and Supply Monitor (09) -/

/-- The button filter (09, 9.1); `sampledAt` is the time of the last sample or the end of the full reset (R153). -/
structure ButtonFilter where
  pressed : Bool
  disagree : Nat
  sampledAt : Time
  deriving DecidableEq, Repr

inductive LampPattern where | dark | seek | lit | fail | fault
  deriving DecidableEq, Repr

/-- The lamp pattern generator (09, 9.2); its position is the present time less `since`, and `on` is the lamp within a
periodic pattern. -/
structure Lamp where
  requested : LampPattern
  wanted : LampPattern
  running : LampPattern
  pending : Option LampPattern
  periodCount : Nat
  since : Time
  on : Bool
  deriving DecidableEq, Repr

/-- The Supply Monitor's filter (09, 9.3); the threshold set is the SUPPLY-SET strap. `sampledAt` is the time of the last
sample or the end of the full reset (R159, R161). -/
structure SupplyMonitor where
  state : Supply
  candidate : Option Supply
  agree : Nat
  sampledAt : Time
  deriving DecidableEq, Repr

/-! ## Control Band Interface (10) -/

/-- The frame in hand (10, 10.2). It is the first entry of its class. While it is SENDING, `line` is the content on the
line and `replaced` says that a new OFFER took its entry meanwhile (R167). -/
structure Hand where
  cls : FrameClass
  line : Option Frame
  collisions : Nat
  replaced : Bool
  deriving DecidableEq, Repr

/-- R165: a start edge heard on a band that was quiet, and the quiet-since that it ended. -/
structure StartEdge where
  heardAt : Time
  quietSince : Time
  deriving DecidableEq, Repr

/-- The Control Band Interface: the transmit queue in the order of R168, the access to the band, the receiver (it hunts while
`receiving` is no, R163), the duplicate fault. -/
structure Band where
  calls : List Frame
  offer : Option Frame
  services : List Frame
  hand : Option Hand
  quietSince : Option Time
  lastDominant : Time
  /-- R165: the start edge with which another station made the band active (log 48) -/
  startEdge : Option StartEdge
  /-- R162, R165: the start edge from which the bits of the frame on the line are timed, or of the last frame sent (log 19) -/
  sendSince : Time
  receiving : Bool
  dupFault : Bool
  dupFrames : BitVec 16
  deriving DecidableEq, Repr

/-- The nine service counters (12, R179). -/
structure Counters where
  framesSent : BitVec 16
  collisions : BitVec 16
  framesDropped : BitVec 16
  checkErrors : BitVec 16
  callsOriginated : BitVec 16
  callsGranted : BitVec 16
  probeFailures : BitVec 16
  laneLosses : BitVec 16
  moduleFaults : BitVec 16
  deriving DecidableEq, Repr

/-! ## Service Responder (12) -/

/-- A lane test's result (12, 12.1). -/
inductive TestResult where
  | none | pass | errors | drift | stuck | nosync | timeout | aborted | generated | refused
  deriving DecidableEq, Repr

/-- The result record (12, R183). -/
structure ResultRecord where
  result : TestResult
  lane : Octet
  words : Nat
  errorsCounted : Nat
  errorsExpected : Nat
  lastCompare : Int
  largestCompare : Nat
  dropouts : BitVec 16
  deriving DecidableEq, Repr

inductive TestRole where | generate | check
  deriving DecidableEq, Repr

/-- The test in progress (12). -/
structure LaneTest where
  role : TestRole
  lane : Lane
  orderer : Octet
  lengthExp : Nat
  intervalExp : Nat
  startBit : Nat
  walk : Nat
  burstExp : Nat
  start : Time
  dropouts : BitVec 16
  largest : Nat
  deriving DecidableEq, Repr

inductive RestartOutcome where | none | done | refused
  deriving DecidableEq, Repr

/-- The Service Responder (12). -/
structure Service where
  record : ResultRecord
  test : Option LaneTest
  lastRestart : RestartOutcome
  deriving DecidableEq, Repr

/-! ## The model's own records -/

/-- A notice from one block to another that is taken after the operation that gives it, in the same event (log 9). -/
inductive Notice where
  /-- R113: a module became grantable; to the arbiter (R73), then to the origin record (R36) -/
  | grantable (m : Mod)
  /-- R122: a lane became free for choosing; to the arbiter (R73), then to the origin record (R36) -/
  | laneFree (l : Lane)
  /-- R12: an Offer Table entry was created; to the origin record (R36) -/
  | newEntry
  /-- R47: the local carriage ended; to the origin record -/
  | localEnd (r : ReleaseReason)
  /-- R37, R71: the queued local claim was refused; to the origin record -/
  | localRefused
  deriving DecidableEq, Repr

/-- What a command sent out: kept until the next command (log 32). -/
inductive Output where
  /-- an order sent on a module link (R101, R102), with the code of a SELECT -/
  | order (m : Mod) (k : OrderKind) (code : Code)
  /-- a frame that has gone out whole, all its octets (R162, R166) -/
  | frame (octets : List Octet)
  /-- an end signal of the Carriage Switch to a record (R147, R149) -/
  | signal (receiver : Owner) (d : Dest) (what : Played) (why : SignalReason)
  deriving DecidableEq, Repr

/-- The station. -/
structure State where
  now : Time
  inReset : Bool
  /-- R175: the end of the 50 ms that follow a power-on, while a full reset lasts -/
  powerOnHold : Option Time
  straps : Straps
  sched : OfferSchedule
  offerTable : List OfferEntry
  coc : Origin
  claims : List ClaimEntry
  carriages : PerMod (Option Carriage)
  modules : PerMod Module
  lanes : PerLane LaneEntry
  engines : PerEngine Engine
  csw : Switch
  button : ButtonFilter
  lamp : Lamp
  supply : SupplyMonitor
  band : Band
  counters : Counters
  svc : Service
  notices : List Notice
  out : List Output
  freeTick : Nat
  pending : List Instr
  deriving DecidableEq, Repr

/-- The faults of a step: none. The guide names no event that stops the station, and no command of the table is
without effect, so nothing raises a fault; that is safe, since no behaviour is cut short. -/
inductive Fault where
  deriving DecidableEq, Repr

/-- The refusals of a step. -/
inductive Refusal where
  /-- A command that has no meaning yet, by its mnemonic. No command of this model raises it. Safe: the machine stops
  where the hardware goes on. -/
  | notModelled (mnemonic : String)
  deriving DecidableEq, Repr

/-! ## The values after a full reset -/

def OfferSchedule.cleared : OfferSchedule :=
  { phase := .silent, firstDue := none, periodicDue := none, changeDeadline := none, withdrawalOwed := false,
    lastHandover := none, reference := none, deferred := none }

/-- R57 -/
def Origin.reset : Origin :=
  { tagCounter := 0, tag := 0, state := .idle, path := none, claimKind := .new, attempts := 0,
    answerDeadline := none, queuePos := none, silenceDeadline := none, regrantWait := none, stage := none,
    network := none, answered := false, searchDeadline := none, retryTime := none, wokenAt := none,
    failedUntil := none, avoid := [], recoveries := 0, dropouts := 0, pressesIgnored := 0, endReason := .none }

/-- A position that is not fitted, or any position while a full reset lasts (R119, R175). -/
def Module.absent : Module :=
  { fitted := false, state := .absent, power := false, powerOnTime := none, poweredAt := 0, poweringDeadline := none,
    selected := none, inFlight := none, pendingOrder := none, timeouts := 0, powerCycles := 0, lastScan := none,
    rescanDue := none, progressDeadline := none, link := false, linkErrors := 0, table := [],
    callInProgress := false }

/-- R140, with the reset's end at `t`. -/
def LaneEntry.reset (t : Time) : LaneEntry :=
  { occupancy := .busy, owner := none, carrierA := false, carrierB := false, quietSince := some t,
    quarantineUntil := none, supervised := false, gapStart := none }

/-- R140. What the rule does not name has no word and is 0 (log 19). -/
def Engine.idle : Engine :=
  { user := none, lane := none, transmitHalf := none, receiveHalf := none, generator := .idle, genSeed := 0,
    genStart := 0, checker := .idle, checkStart := 0, predictor := 0, seekLoaded := false, seekFrom := none,
    settleFrom := none, gapFrom := none, steady := 0, restarts := 0, compared := 0, errors := 0, run := 0,
    lastWord := none, compare := 0 }

def Slot.empty : Slot := { base := none, owner := none, holdUntil := none, overlay := none }

def Player.idle : Player :=
  { state := .idle, owner := none, prompt := none, repeats := 0, gap := 0, playsDone := 0, since := 0 }

def Ident.idle : Ident :=
  { running := none, waiting := none, digits := [0, 0, 0, 0, 0, 0, 0, 0], digit := 1, inTone := true, since := 0 }

def PerLane.all {α : Type} (x : α) : PerLane α := { l1 := x, l2 := x, l3 := x, l4 := x, l5 := x, l6 := x }

/-- R152 -/
def Switch.reset : Switch :=
  { speaker := Slot.empty, modTx := { a := Slot.empty, b := Slot.empty }, laneTx := PerLane.all Slot.empty,
    gapA := PerLane.all false, gapB := PerLane.all false,
    players := { s := Player.idle, a := Player.idle, b := Player.idle }, ident := Ident.idle }

/-- R158, for the pattern the station shows when idle. -/
def Lamp.start (wanted : LampPattern) (t : Time) : Lamp :=
  { requested := .dark, wanted := wanted, running := wanted, pending := none, periodCount := 0, since := t,
    on := true }

/-- R153, with the reset's end at `t`. -/
def ButtonFilter.reset (t : Time) : ButtonFilter := { pressed := false, disagree := 0, sampledAt := t }

/-- R161, with the reset's end at `t`. -/
def SupplyMonitor.reset (t : Time) : SupplyMonitor := { state := .normal, candidate := none, agree := 0, sampledAt := t }

/-- R168, R172 -/
def Band.reset (t : Time) : Band :=
  { calls := [], offer := none, services := [], hand := none, quietSince := some t, lastDominant := t,
    startEdge := none, sendSince := 0, receiving := false, dupFault := false, dupFrames := 0 }

/-- R179 -/
def Counters.zero : Counters :=
  { framesSent := 0, collisions := 0, framesDropped := 0, checkErrors := 0, callsOriginated := 0,
    callsGranted := 0, probeFailures := 0, laneLosses := 0, moduleFaults := 0 }

/-- R183 -/
def ResultRecord.none : ResultRecord :=
  { result := .none, lane := 0, words := 0, errorsCounted := 0, errorsExpected := 0, lastCompare := 0,
    largestCompare := 0, dropouts := 0 }

def Straps.zero : Straps :=
  { station := 0, sectionCode := 0, modA := false, modB := false, offer := false, supplySet := false }

/-- The station right after a full reset that ended at time 0 with every strap pin read as 0 (log 4): station number 0, no
module fitted, so SILENT (R5), both positions ABSENT (R119) and the lamp FAULT (R158). -/
def State.reset : State :=
  { now := 0, inReset := false, powerOnHold := none, straps := Straps.zero, sched := OfferSchedule.cleared, offerTable := [],
    coc := Origin.reset, claims := [], carriages := { a := none, b := none },
    modules := { a := Module.absent, b := Module.absent }, lanes := PerLane.all (LaneEntry.reset 0),
    engines := { e0 := Engine.idle, e1 := Engine.idle, e2 := Engine.idle }, csw := Switch.reset,
    button := ButtonFilter.reset 0, lamp := Lamp.start .fault 0,
    supply := SupplyMonitor.reset 0, band := Band.reset 0,
    counters := Counters.zero, svc := { record := ResultRecord.none, test := none, lastRestart := .none },
    notices := [], out := [], freeTick := 0, pending := [] }

end Sys2Proof.Machine
end

