-- ==== Sys2Proof/Machine/Ops.lean ====
section
/-! DEFINITION. The figures of the guide, and the named reads and writes of the state that every block uses. -/

namespace Sys2Proof.Machine

/-! ## Figures (00 "Figures used throughout") -/

def offerPeriod : Time := ms 2000
def changeHoldOff : Time := ms 100
def offerSpacing : Time := ms 250
def entryLife : Time := ms 10000
def claimAnswerTime : Time := ms 1500
def silenceTime : Time := ms 12000
def regrantTime : Time := ms 2000
def searchTime : Time := ms 180000
def retryWait : Time := ms 2000
def failedDisplay : Time := ms 10000
def avoidLife : Time := ms 30000
def claimLife : Time := ms 30000
def waitInterval : Time := ms 5000
def connectTime : Time := ms 1000
def ringTime : Time := ms 60000
def rejoinTime : Time := ms 20000
def penaltyTime : Time := ms 60000
def offTime : Time := ms 1000
def disabledTime : Time := ms 600000
def poweringTime : Time := ms 15000
def refreshTime : Time := ms 300000
def rescanTime : Time := ms 30000
def progressTime : Time := ms 60000
def laneQuiet : Time := ms 300
def quarantineTime : Time := ms 10000
def patternTime : Time := ms 600
def probeLimit : Time := ms 600
def settleTime : Time := ms 40
def gapLimit : Time := ms 40
def lossTime : Time := ms 400
def holdTime : Time := ms 600
def buttonPeriod : Time := ms 10
def supplyPeriod : Time := ms 100
def powerOnTime : Time := ms 50
def linkGap : Time := ms 20
def frameGap : Time := ms 1
def toneTime : Time := ms 70
def toneGap : Time := ms 50
def holdLineGap : Time := ms 3000

/-- The time limit of each order (06, 6.3). -/
def orderTime : OrderKind → Time
  | .scan => ms 20000
  | .select => ms 10000
  | .dial => ms 10000
  | .hangup => ms 5000
  | .abort => ms 2000

/-! ## Families -/

def PerMod.get {α : Type} (p : PerMod α) : Mod → α
  | .a => p.a
  | .b => p.b

def PerMod.set {α : Type} (p : PerMod α) (m : Mod) (x : α) : PerMod α :=
  match m with
  | .a => { p with a := x }
  | .b => { p with b := x }

def PerLane.get {α : Type} (p : PerLane α) : Lane → α
  | .l1 => p.l1
  | .l2 => p.l2
  | .l3 => p.l3
  | .l4 => p.l4
  | .l5 => p.l5
  | .l6 => p.l6

def PerLane.set {α : Type} (p : PerLane α) (l : Lane) (x : α) : PerLane α :=
  match l with
  | .l1 => { p with l1 := x }
  | .l2 => { p with l2 := x }
  | .l3 => { p with l3 := x }
  | .l4 => { p with l4 := x }
  | .l5 => { p with l5 := x }
  | .l6 => { p with l6 := x }

def PerEngine.get {α : Type} (p : PerEngine α) : EngineId → α
  | .e0 => p.e0
  | .e1 => p.e1
  | .e2 => p.e2

def PerEngine.set {α : Type} (p : PerEngine α) (e : EngineId) (x : α) : PerEngine α :=
  match e with
  | .e0 => { p with e0 := x }
  | .e1 => { p with e1 := x }
  | .e2 => { p with e2 := x }

def PerPlayer.get {α : Type} (p : PerPlayer α) : PlayerId → α
  | .s => p.s
  | .a => p.a
  | .b => p.b

def PerPlayer.set {α : Type} (p : PerPlayer α) (i : PlayerId) (x : α) : PerPlayer α :=
  match i with
  | .s => { p with s := x }
  | .a => { p with a := x }
  | .b => { p with b := x }

/-- The lanes in the order of their numbers. -/
def allLanes : List Lane := [.l1, .l2, .l3, .l4, .l5, .l6]

/-- A lane's number, 1..6. -/
def laneNumber : Lane → Nat
  | .l1 => 1
  | .l2 => 2
  | .l3 => 3
  | .l4 => 4
  | .l5 => 5
  | .l6 => 6

/-- The lane of a number, when it lies in 1..6. -/
def laneOfNumber : Nat → Option Lane
  | 1 => some .l1
  | 2 => some .l2
  | 3 => some .l3
  | 4 => some .l4
  | 5 => some .l5
  | 6 => some .l6
  | _ => none

/-- The lane is in the mask: bit n − 1 for lane n (04, 4.8). -/
def inMask (mask : LaneMask) (l : Lane) : Bool := mask.getLsbD (laneNumber l - 1)

def otherHalf : Half → Half
  | .a => .b
  | .b => .a

/-! ## The state -/

/-- The own station number; 0 is an unconfigured station. -/
def State.own (s : State) : Station := s.straps.station.toNat

def State.mod (s : State) (m : Mod) : Module := s.modules.get m

def State.updMod (s : State) (m : Mod) (f : Module → Module) : State :=
  { s with modules := s.modules.set m (f (s.modules.get m)) }

def State.car (s : State) (m : Mod) : Option Carriage := s.carriages.get m

def State.setCar (s : State) (m : Mod) (c : Option Carriage) : State :=
  { s with carriages := s.carriages.set m c }

/-- Changes the carriage of a slot, when it holds one. -/
def State.updCar (s : State) (m : Mod) (f : Carriage → Carriage) : State :=
  { s with carriages := s.carriages.set m ((s.carriages.get m).map f) }

def State.lane (s : State) (l : Lane) : LaneEntry := s.lanes.get l

def State.updLane (s : State) (l : Lane) (f : LaneEntry → LaneEntry) : State :=
  { s with lanes := s.lanes.set l (f (s.lanes.get l)) }

def State.engine (s : State) (e : EngineId) : Engine := s.engines.get e

def State.updEngine (s : State) (e : EngineId) (f : Engine → Engine) : State :=
  { s with engines := s.engines.set e (f (s.engines.get e)) }

def State.updCoc (s : State) (f : Origin → Origin) : State := { s with coc := f s.coc }

def State.updCsw (s : State) (f : Switch → Switch) : State := { s with csw := f s.csw }

def State.updBand (s : State) (f : Band → Band) : State := { s with band := f s.band }

def State.updSched (s : State) (f : OfferSchedule → OfferSchedule) : State := { s with sched := f s.sched }

/-- Changes a service counter. -/
def State.count (s : State) (f : Counters → Counters) : State := { s with counters := f s.counters }

def State.notify (s : State) (n : Notice) : State := { s with notices := s.notices ++ [n] }

def State.emit (s : State) (o : Output) : State := { s with out := s.out ++ [o] }

/-- Adds 1 to frames dropped (R173). -/
def State.dropFrame (s : State) : State :=
  s.count fun c => { c with framesDropped := satInc c.framesDropped }

/-- A deadline that is set and has been reached (00 "Times"). -/
def reached (d : Option Time) (now : Time) : Bool :=
  match d with
  | some t => decide (t ≤ now)
  | none => false

/-- A time that is absent or has been reached. -/
def passed (d : Option Time) (now : Time) : Bool :=
  match d with
  | some t => decide (t ≤ now)
  | none => true

/-- The deadline `d` is due in `s`. -/
def State.due (s : State) (d : Option Time) : Bool := reached d s.now

end Sys2Proof.Machine
end

