-- ==== Sys2Proof/Machine/Operands.lean ====
section
/-! DEFINITION. The octet formats of the guide: frames and their check (R162), the payloads of the frames (01, 04, 05, 12) and
the messages of the module link (06, 6.1), read and built. -/

namespace Sys2Proof.Machine

/-! ## Octets -/

def oct (n : Nat) : Octet := BitVec.ofNat 8 n

/-- Two octets, the high one first (00 "Units on the wire"). -/
def be16 (n : Nat) : List Octet := [oct (n / 256), oct n]

/-- Three octets, the high one first. -/
def be24 (n : Nat) : List Octet := [oct (n / 65536), oct (n / 256), oct n]

/-- Octet `i` of a payload as a number. -/
def octAt (p : List Octet) (i : Nat) : Nat := (p.getD i 0).toNat

/-- Octet `i` of a payload. -/
def octetAt (p : List Octet) (i : Nat) : Octet := p.getD i 0

/-- The number in the three octets from `i`, the high one first. -/
def be24At (p : List Octet) (i : Nat) : Nat := octAt p i * 65536 + octAt p (i + 1) * 256 + octAt p (i + 2)

def boolNat (b : Bool) : Nat := if b then 1 else 0

/-! ## Frame kinds (10, 10.1) -/

def kindCode : FrameKind → Nat
  | .grant => 1
  | .wait => 2
  | .refuse => 3
  | .connect => 4
  | .progress => 5
  | .release => 6
  | .claim => 7
  | .offer => 16
  | .statusQuery => 32
  | .statusReport => 33
  | .testOrder => 34
  | .testReport => 35
  | .restart => 36

/-- The frame kind of a kind octet, when the kind table has it. -/
def kindOf (code : Nat) : Option FrameKind :=
  match code with
  | 1 => some .grant
  | 2 => some .wait
  | 3 => some .refuse
  | 4 => some .connect
  | 5 => some .progress
  | 6 => some .release
  | 7 => some .claim
  | 16 => some .offer
  | 32 => some .statusQuery
  | 33 => some .statusReport
  | 34 => some .testOrder
  | 35 => some .testReport
  | 36 => some .restart
  | _ => none

/-- The class of a kind in the transmit queue (10, 10.1). The kinds that a station only receives have no class there and
are never handed over. -/
def frameClass : FrameKind → FrameClass
  | .offer => .offer
  | .statusQuery => .service
  | .statusReport => .service
  | .testOrder => .service
  | .testReport => .service
  | .restart => .service
  | .grant => .call
  | .wait => .call
  | .refuse => .call
  | .connect => .call
  | .progress => .call
  | .release => .call
  | .claim => .call

/-! ## The check (R162) -/

/-- One bit of the check register: compare bit 15 with the data bit, move up, and take the exclusive-or with 15,717 when
they differed. -/
def checkBit (reg : BitVec 16) (bit : Bool) : BitVec 16 :=
  if reg.getLsbD 15 = bit then reg <<< 1 else (reg <<< 1) ^^^ 15717#16

/-- The bits of an octet in the order sent, bit 7 first. -/
def octetBits (o : Octet) : List Bool :=
  [o.getLsbD 7, o.getLsbD 6, o.getLsbD 5, o.getLsbD 4, o.getLsbD 3, o.getLsbD 2, o.getLsbD 1, o.getLsbD 0]

/-- The check of a run of octets, from the preset 65,535. -/
def frameCheck (octets : List Octet) : BitVec 16 :=
  octets.foldl (fun reg o => (octetBits o).foldl checkBit reg) 65535#16

/-- A frame as it goes out: header, payload, check (10, 10.1). -/
def frameOctets (sender : Octet) (f : Frame) : List Octet :=
  let body := [oct (kindCode f.kind), sender, f.target, oct f.payload.length] ++ f.payload
  body ++ be16 (frameCheck body).toNat

/-- The ten bits of an octet on the line, a recessive level being `true`: start bit, data, stop bit (R162). -/
def lineBits (o : Octet) : List Bool := [false] ++ octetBits o ++ [true]

/-- The bits of a frame on the line, its octets in a continuous run (R162). -/
def frameBits (sender : Octet) (f : Frame) : List Bool := (frameOctets sender f).flatMap lineBits

/-- A complete frame, all its octets and its check, whose check is right (R163). -/
def checkGood (octets : List Octet) : Bool :=
  let n := octets.length
  decide (6 ≤ n) && octets.drop (n - 2) == be16 (frameCheck (octets.take (n - 2))).toNat

/-! ## Call-class payloads (04, 4.8; 05, 5.6) -/

def modCode : Mod → Nat
  | .a => 0
  | .b => 1

/-- The module of a GRANT's octet, when it is A or B. -/
def modOfCode : Nat → Option Mod
  | 0 => some .a
  | 1 => some .b
  | _ => none

def refuseCode : RefuseReason → Nat
  | .noChannel => 0
  | .lowSupply => 1
  | .queueFull => 2
  | .expired => 3
  | .noLane => 4
  | .noRejoin => 5

/-- A REFUSE's reason; an unknown one is taken as NO-CHANNEL (R171). -/
def refuseOf : Nat → RefuseReason
  | 1 => .lowSupply
  | 2 => .queueFull
  | 3 => .expired
  | 4 => .noLane
  | 5 => .noRejoin
  | _ => .noChannel

def releaseCode : ReleaseReason → Nat
  | .farClear => 0
  | .netDrop => 1
  | .laneLost => 2
  | .moduleFault => 3
  | .allNetworksFailed => 4
  | .late => 5
  | .abandon => 6
  | .restart => 7

/-- A RELEASE's reason, when it is one of the eight known. -/
def releaseOf : Nat → Option ReleaseReason
  | 0 => some .farClear
  | 1 => some .netDrop
  | 2 => some .laneLost
  | 3 => some .moduleFault
  | 4 => some .allNetworksFailed
  | 5 => some .late
  | 6 => some .abandon
  | 7 => some .restart
  | _ => none

def stageCode : Stage → Nat
  | .dialing => 0
  | .reselecting => 1
  | .ringing => 2
  | .answered => 3

def stageOf : Nat → Option Stage
  | 0 => some .dialing
  | 1 => some .reselecting
  | 2 => some .ringing
  | 3 => some .answered
  | _ => none

def outcomeCode : ProbeOutcome → Nat
  | .pass => 0
  | .errors => 1
  | .drift => 2
  | .stuck => 3
  | .nosync => 4
  | .timeout => 5

def claimFrame (target : Station) (tag : Tag) (kind : ClaimKind) (mask : LaneMask) : Frame :=
  { kind := .claim, target := oct target,
    payload := [tag, oct (match kind with | .new => 0 | .rejoin => 1), oct mask.toNat] }

def grantFrame (target : Station) (tag : Tag) (l : Lane) (m : Mod) (rejoin : Bool) : Frame :=
  { kind := .grant, target := oct target,
    payload := [tag, oct (laneNumber l), oct (modCode m), oct (boolNat rejoin)] }

def waitFrame (target : Station) (tag : Tag) (position : Nat) : Frame :=
  { kind := .wait, target := oct target, payload := [tag, oct position] }

def refuseFrame (target : Station) (tag : Tag) (r : RefuseReason) : Frame :=
  { kind := .refuse, target := oct target, payload := [tag, oct (refuseCode r)] }

def connectFrame (target : Station) (tag : Tag) (l : Lane) (o : ProbeOutcome) : Frame :=
  { kind := .connect, target := oct target, payload := [tag, oct (laneNumber l), oct (outcomeCode o)] }

def progressFrame (target : Station) (tag : Tag) (stage : Octet) (code : Nat) : Frame :=
  { kind := .progress, target := oct target, payload := [tag, stage] ++ be24 code }

def releaseFrame (target : Station) (tag : Tag) (r : ReleaseReason) : Frame :=
  { kind := .release, target := oct target, payload := [tag, oct (releaseCode r)] }

/-! ## The OFFER payload (01, 1.3; R11) -/

def supplyCode : Supply → Nat
  | .normal => 0
  | .reserve => 1
  | .low => 2

def summaryStateCode : SummaryState → Nat
  | .free => 0
  | .busy => 1
  | .searching => 2
  | .fault => 3

def summaryOctets : Option Summary → List Octet
  | none => [0, 0, 0, 0, 0, 0]
  | some x =>
    [oct (1 + 2 * summaryStateCode x.state + 16 * boolNat x.best.isSome)] ++ be24 (x.best.getD 0)
      ++ [oct x.quality, oct x.usable]

def offerFrame (c : Content) : Frame :=
  { kind := .offer, target := 0,
    payload := [oct (boolNat c.offering + 2 * supplyCode c.supply), oct c.depth] ++ summaryOctets c.a
      ++ summaryOctets c.b }

/-- A summary as R11 brings it into range, from the six octets at `i`. -/
def summaryAt (p : List Octet) (i : Nat) : Option Summary :=
  let o := octAt p i
  if o % 2 = 0 then none
  else
    let state : SummaryState :=
      match o / 2 % 8 with
      | 0 => .free
      | 1 => .busy
      | 2 => .searching
      | _ => .fault
    let code := be24At p (i + 1)
    let present := decide (o / 16 % 2 = 1)
    let q := min (octAt p (i + 4)) 63
    let best := if present && decide (code ≤ 999999) then some code else none
    some { state := state, best := best, quality := if present && decide (999999 < code) then 0 else q,
           usable := min (octAt p (i + 5)) 8 }

/-- What an OFFER payload says (R11): nothing readable, a withdrawal, or the fields of an entry. -/
inductive OfferReading where
  | malformed
  | withdrawal
  | entry (supply : Supply) (depth : Nat) (a b : Option Summary)
  deriving DecidableEq, Repr

def readOffer (p : List Octet) : OfferReading :=
  if p.length ≠ 14 then .malformed
  else if octAt p 0 % 2 = 0 then .withdrawal
  else
    match octAt p 0 / 2 % 4 with
    | 0 => .entry .normal (min (octAt p 1) 6) (summaryAt p 2) (summaryAt p 8)
    | 1 => .entry .reserve (min (octAt p 1) 6) (summaryAt p 2) (summaryAt p 8)
    | _ => .withdrawal

/-! ## The module link (06, 6.1) -/

def orderCode : OrderKind → Nat
  | .scan => 1
  | .select => 2
  | .dial => 3
  | .hangup => 4
  | .abort => 5

/-- An order as it is sent on the link: start octet, kind, length, payload. -/
def orderOctets (k : OrderKind) (code : Code) : List Octet :=
  match k with
  | .select => [oct 170, oct (orderCode k), oct 3] ++ be24 code
  | _ => [oct 170, oct (orderCode k), oct 0]

/-- A complete message, by kind and payload, is a well-formed report (R99). -/
def linkReport (kind : Octet) (payload : List Octet) : Bool :=
  match kind.toNat with
  | 16 => payload.length == 0
  | 17 => decide (1 ≤ payload.length) && payload.length == 1 + 5 * octAt payload 0
  | 18 => payload.length == 4
  | 19 => payload.length == 0
  | 20 => payload.length == 0
  | 21 => payload.length == 0
  | 22 => payload.length == 0
  | 23 => payload.length == 1
  | 24 => payload.length == 0
  | 25 => payload.length == 1
  | 26 => payload.length == 0
  | _ => false

/-- A report of a module, as its message carries it (06, 6.1). -/
inductive Report where
  | ready
  | scanList (entries : List ScanEntry)
  | selected (code : BitVec 24) (result : Octet)
  | accepted
  | rejected
  | ringing
  | answered
  | ended (reason : Octet)
  | aborted
  | quality (q : Octet)
  | fault
  deriving DecidableEq, Repr

/-- The entries of a SCAN-LIST, five octets each: code, high octet first, quality, flags. -/
def scanEntries : List Octet → List ScanEntry
  | c2 :: c1 :: c0 :: q :: x :: rest => { code := c2 ++ c1 ++ c0, quality := q, flags := x } :: scanEntries rest
  | _ => []

/-- The report in a complete message, when it is a well-formed one (R99). -/
def readReport (kind : Octet) (payload : List Octet) : Option Report :=
  if linkReport kind payload then
    match kind.toNat with
    | 16 => some .ready
    | 17 => some (.scanList (scanEntries payload.tail))
    | 18 => some (.selected (octetAt payload 0 ++ octetAt payload 1 ++ octetAt payload 2) (octetAt payload 3))
    | 19 => some .accepted
    | 20 => some .rejected
    | 21 => some .ringing
    | 22 => some .answered
    | 23 => some (.ended (octetAt payload 0))
    | 24 => some .aborted
    | 25 => some (.quality (octetAt payload 0))
    | 26 => some .fault
    | _ => none
  else none

/-- The five octets of a SCAN-LIST entry. -/
def scanEntryOctets (e : ScanEntry) : List Octet :=
  [e.code.extractLsb' 16 8, e.code.extractLsb' 8 8, e.code.extractLsb' 0 8, e.quality, e.flags]

/-- A report as its message carries it: kind and payload. -/
def reportPayload : Report → Octet × List Octet
  | .ready => (16, [])
  | .scanList entries => (17, oct entries.length :: (entries.map scanEntryOctets).flatten)
  | .selected code result => (18, [code.extractLsb' 16 8, code.extractLsb' 8 8, code.extractLsb' 0 8, result])
  | .accepted => (19, [])
  | .rejected => (20, [])
  | .ringing => (21, [])
  | .answered => (22, [])
  | .ended reason => (23, [reason])
  | .aborted => (24, [])
  | .quality q => (25, [q])
  | .fault => (26, [])

/-- The message of a report as its octets on the link. -/
def reportOctets (r : Report) : List Octet :=
  [170, (reportPayload r).1, oct (reportPayload r).2.length] ++ (reportPayload r).2

/-- The receiver of a module link (R99): hunting for a start octet, or taking a message. -/
inductive LinkRx where
  | hunting
  | kind
  | length (kind : Octet)
  | payload (kind : Octet) (need : Nat) (got : List Octet)
  deriving DecidableEq, Repr

/-- What the receiver of a module link makes of its octets: a well-formed report, or a message that is discarded. -/
inductive LinkEvent where
  | report (r : Report)
  | discarded
  deriving DecidableEq, Repr

/-- R99: a complete message is tested. -/
def messageEvent (kind : Octet) (payload : List Octet) : LinkEvent :=
  match readReport kind payload with
  | some r => .report r
  | none => .discarded

/-- R99: one octet at the receiver. -/
def LinkRx.take (x : LinkRx) (o : Octet) : LinkRx × List LinkEvent :=
  match x with
  | .hunting => (if o = 170 then .kind else .hunting, [])
  | .kind => (.length o, [])
  | .length k => if o = 0 then (.hunting, [messageEvent k []]) else (.payload k o.toNat [], [])
  | .payload k need got =>
    if got.length + 1 < need then (.payload k need (got ++ [o]), []) else (.hunting, [messageEvent k (got ++ [o])])

/-- R99: a message stopped for more than 20 ms is discarded, and the receiver hunts. -/
def LinkRx.rest (x : LinkRx) (stopped : Bool) : LinkRx × List LinkEvent :=
  match x with
  | .hunting => (.hunting, [])
  | _ => if stopped then (.hunting, [.discarded]) else (x, [])

/-- R99: the octets of a link one after another, from the receiver `x` whose last octet came at `last`, until the time
`now`: what becomes of them, in order. -/
def linkEvents (x : LinkRx) (last now : Time) : List LinkOctet → List LinkEvent
  | [] => (x.rest (decide (last + linkGap ≤ now))).2
  | o :: rest =>
    let r := x.rest (decide (last + linkGap < o.heardAt))
    let y := r.1.take o.octet
    r.2 ++ y.2 ++ linkEvents y.1 o.heardAt now rest

end Sys2Proof.Machine
end

