-- ==== Sys2Proof/Machine/Flags.lean ====
section
/-! DEFINITION. The conditions and derived contents that the rules of several blocks read: usable networks, grantable
modules, lanes free for choosing, the own offer content, the activity of the station. -/

namespace Sys2Proof.Machine

/-! ## Modules (02, 04, 06) -/

/-- A network neither barred nor penalised (06, 6.5). -/
def Net.usable (n : Net) : Bool := !n.barred && n.penalisedUntil.isNone

def hasUsable (t : List Net) : Bool := t.any Net.usable

def usableCount (t : List Net) : Nat := (t.filter Net.usable).length

def firstUsable (t : List Net) : Option Code := (t.find? Net.usable).map Net.code

def netOf (t : List Net) (code : Code) : Option Net := t.find? fun n => n.code == code

/-- The code is a usable network of the table. -/
def codeUsable (t : List Net) (code : Code) : Bool :=
  match netOf t code with
  | some n => n.usable
  | none => false

def qualityOf (t : List Net) (code : Code) : Nat :=
  match netOf t code with
  | some n => n.quality
  | none => 0

/-- READY or REFRESHING (R59). -/
def Module.resting (r : Module) : Bool := r.state == .ready || r.state == .refreshing

/-- R59: a module the arbiter can grant. -/
def Module.grantable (r : Module) : Bool := r.fitted && r.resting && !r.link && hasUsable r.table

/-- R59: a fitted module in any state but FAULT and DISABLED. -/
def Module.serviceable (r : Module) : Bool := r.fitted && r.state != .fault && r.state != .disabled

/-- R18: a module usable as a path. -/
def Module.usableAsPath (r : Module) : Bool := r.fitted && (r.resting || r.link) && hasUsable r.table

/-- R3: the best network of a summary. -/
def Module.best (r : Module) : Option Code :=
  match r.selected with
  | some c => some c
  | none => firstUsable r.table

/-- R3: the best quality of a summary. -/
def Module.bestQuality (r : Module) : Nat :=
  match r.best with
  | some c => qualityOf r.table c
  | none => 0

/-- R2: the summary state of a fitted position. -/
def Module.summaryState (r : Module) : SummaryState :=
  match r.state with
  | .fault => .fault
  | .disabled => .fault
  | .ready => if r.link then .busy else .free
  | .refreshing => if r.link then .busy else .free
  | .dialing => .busy
  | .ringing => .busy
  | .inCall => .busy
  | .hangingUp => .busy
  | .powering => if r.link then .busy else .searching
  | .scanning => if r.link then .busy else .searching
  | .noService => if r.link then .busy else .searching
  | .selecting => if r.link then .busy else .searching
  | .absent => .searching

/-- R2, R3: the summary of a position, absent when it is not fitted. -/
def Module.summary (r : Module) : Option Summary :=
  if r.state == .absent then none
  else some { state := r.summaryState, best := r.best, quality := r.bestQuality, usable := usableCount r.table }

/-! ## The own offer (01) -/

/-- R1 -/
def State.offeringFlag (s : State) : Bool :=
  s.straps.offer && (s.straps.modA || s.straps.modB) && s.supply.state != .low && !s.band.dupFault

/-- The own offer content as it stands (01, 1.1). -/
def State.content (s : State) : Content :=
  { offering := s.offeringFlag, supply := s.supply.state, depth := s.claims.length,
    a := s.modules.a.summary, b := s.modules.b.summary }

/-- R4, one position: the summaries differ. Qualities differ when they are 4 or more apart. -/
def summaryDiffers (x y : Option Summary) : Bool :=
  match x, y with
  | none, none => false
  | some p, some q =>
    p.state != q.state || p.best != q.best || p.usable != q.usable ||
      decide (q.quality + 4 ≤ p.quality ∨ p.quality + 4 ≤ q.quality)
  | none, some _ => true
  | some _, none => true

/-- R4: the current content differs from the reference. Without a reference every comparison finds a difference. -/
def contentDiffers (c : Content) (reference : Option Content) : Bool :=
  match reference with
  | none => true
  | some r => summaryDiffers c.a r.a || summaryDiffers c.b r.b || c.depth != r.depth || c.supply != r.supply

/-- What the builder's comparison of R4 is made upon: module state, carriage link, network table, selection. -/
def Module.offerInput (r : Module) : ModuleState × Bool × List Net × Option Code :=
  (r.state, r.link, r.table, r.selected)

/-- R4: one of the builder's inputs changed between two states. -/
def offerInputsChanged (s0 s1 : State) : Bool :=
  s0.modules.a.offerInput != s1.modules.a.offerInput || s0.modules.b.offerInput != s1.modules.b.offerInput ||
    s0.claims.length != s1.claims.length || s0.supply.state != s1.supply.state

/-! ## Lanes (07) -/

/-- R120 -/
def LaneEntry.freeForChoosing (e : LaneEntry) : Bool :=
  e.occupancy == .free && e.quarantineUntil.isNone && e.owner.isNone

/-- R128: the lane mask, the lanes free for choosing. -/
def State.laneMask (s : State) : LaneMask :=
  (allLanes.filter fun l => (s.lane l).freeForChoosing).foldl
    (fun acc l => acc ||| (1#6 <<< (laneNumber l - 1))) 0#6

/-- The half the station drives on a lane: half A for the origin record and a generating lane test, half B for a carriage;
none while the lane is not OWN (07, 7.1, R126). -/
def LaneEntry.driven (e : LaneEntry) : Option Half :=
  if e.occupancy == .own then
    match e.owner with
    | some .origin => some .a
    | some (.carriage _) => some .b
    | some .laneTest => some .a
    | none => none
  else none

def LaneEntry.heard (e : LaneEntry) : Half → Bool
  | .a => e.carrierA
  | .b => e.carrierB

def LaneEntry.setHeard (e : LaneEntry) (h : Half) (x : Bool) : LaneEntry :=
  match h with
  | .a => { e with carrierA := x }
  | .b => { e with carrierB := x }

/-! ## Call state -/

/-- The carriage waits for its origin: AWAIT-REJOIN or a rejoin GRANTED (R91, R95). -/
def Carriage.waiting (c : Carriage) : Bool :=
  c.state == .awaitRejoin || (c.state == .granted && c.rejoinGrant)

/-- R180: a record is active at the station. -/
def State.recordActive (s : State) : Bool :=
  !(s.coc.state == .idle || s.coc.state == .failed) || s.carriages.a.isSome || s.carriages.b.isSome ||
    !s.claims.isEmpty || s.svc.test.isSome

/-- The slot whose carriage record holds this origin and tag (R60). -/
def State.carriageOf (s : State) (origin : Station) (tag : Tag) : Option Mod :=
  let here := fun (c : Option Carriage) =>
    match c with
    | some x => x.origin == origin && x.tag == tag
    | none => false
  if here s.carriages.a then some .a else if here s.carriages.b then some .b else none

/-- A claim-queue entry holds this origin and tag. -/
def ClaimEntry.names (e : ClaimEntry) (origin : Station) (tag : Tag) : Bool := e.origin == origin && e.tag == tag

def State.queued (s : State) (origin : Station) (tag : Tag) : Bool := s.claims.any fun e => e.names origin tag

/-- A prompt plays on SPEAKER (R55). -/
def State.speakerPlays (s : State) : Bool := s.csw.players.s.state != .idle

end Sys2Proof.Machine
end

