-- ==== Sys2Proof/Machine/Band.lean ====
section
/-! DEFINITION. The Control Band Interface (10): the transmit queue, the access to the band, and the tests of reception. -/

namespace Sys2Proof.Machine

/-! ## The transmit queue (10.3) -/

/-- The number of frames in the transmit queue. -/
def Band.size (b : Band) : Nat := b.calls.length + (if b.offer.isSome then 1 else 0) + b.services.length

/-- R165, R168: the class of the first entry in queue order. -/
def Band.firstClass (b : Band) : Option FrameClass :=
  match b.calls, b.offer, b.services with
  | _ :: _, _, _ => some .call
  | [], some _, _ => some .offer
  | [], none, _ :: _ => some .service
  | [], none, [] => none

/-- R165: with no frame in hand, the first entry in queue order becomes the frame in hand, WAITING, with no collision. -/
def Band.takeHand (b : Band) : Band :=
  match b.hand with
  | some _ => b
  | none =>
    match b.firstClass with
    | some c => { b with hand := some { cls := c, line := none, collisions := 0, replaced := false } }
    | none => b

/-- The frame in hand is of the class. -/
def Band.inHand (b : Band) (c : FrameClass) : Bool :=
  match b.hand with
  | some h => h.cls == c
  | none => false

/-- The content of the frame in hand as the queue holds it. -/
def Band.handFrame (b : Band) : Option Frame :=
  match b.hand with
  | some h =>
    match h.cls with
    | .call => b.calls.head?
    | .offer => b.offer
    | .service => b.services.head?
  | none => none

/-- The call-class entries without the oldest WAIT, when there is one. -/
def withoutWait : List Frame → Option (List Frame)
  | [] => none
  | f :: rest => if f.kind == .wait then some rest else (withoutWait rest).map (f :: ·)

/-- R167: the call-class entries without the oldest WAIT that is not the frame in hand. -/
def Band.displaceWait (b : Band) : Option (List Frame) :=
  if b.inHand .call then
    match b.calls with
    | [] => none
    | f :: rest => (withoutWait rest).map (f :: ·)
  else withoutWait b.calls

/-- R167: a call-class frame joins the queue; the flag says that a frame was lost. -/
def Band.addCall (b : Band) (f : Frame) : Band × Bool :=
  if b.size < 12 then ({ b with calls := b.calls ++ [f] }, false)
  else
    match b.displaceWait with
    | some rest => ({ b with calls := rest ++ [f] }, true)
    | none => (b, true)

/-- R167: an OFFER takes the queued OFFER's entry or a new one. -/
def Band.addOffer (b : Band) (f : Frame) : Band × Bool :=
  match b.offer with
  | some _ =>
    ({ b with
        offer := some f
        hand := b.hand.map fun h => if h.cls == .offer && h.line.isSome then { h with replaced := true } else h },
      false)
  | none => if b.size < 12 then ({ b with offer := some f }, false) else (b, true)

/-- R167: a service frame joins the queue. -/
def Band.addService (b : Band) (f : Frame) : Band × Bool :=
  if b.services.length < 2 ∧ b.size < 12 then ({ b with services := b.services ++ [f] }, false) else (b, true)

/-- R167: a frame handed to the band joins its class in the queue. -/
def Band.add (b : Band) (f : Frame) : Band × Bool :=
  match frameClass f.kind with
  | .call => b.addCall f
  | .offer => b.addOffer f
  | .service => b.addService f

/-- A block hands a frame to the band (R167). At station 0 it is discarded and nothing is counted (R169). -/
def handOver (f : Frame) (s : State) : State :=
  if s.own = 0 then s
  else
    let r := s.band.add f
    let s := { s with band := r.1.takeHand }
    if r.2 then s.dropFrame else s

/-- R168: a RESTART empties the queue, the frame in hand included, and counts nothing. -/
def emptyBand (s : State) : State :=
  s.updBand fun b => { b with calls := [], offer := none, services := [], hand := none }

/-! ## Access (10.2) -/

/-- R163: the band has stayed at the recessive level for 1 ms since the last dominant level. -/
def Band.rested (b : Band) (now : Time) : Bool := decide (b.lastDominant + frameGap ≤ now)

/-- R165: a dominant level on a quiet band is a start edge; on an active band the edge that made it active stays. -/
def Band.edgeAt (b : Band) (now : Time) : Option StartEdge :=
  match b.quietSince with
  | some q => some { heardAt := now, quietSince := q }
  | none => b.startEdge

/-- R163, R164: a dominant level is heard. After 1 ms of rest it is the start bit of a frame. -/
def bandActive (s : State) : State :=
  s.updBand fun b =>
    { b with quietSince := none, lastDominant := s.now, startEdge := b.edgeAt s.now,
             receiving := b.receiving || b.rested s.now }

/-- The span of one octet, ten bit times (R164). -/
def octetSpan : Time := 50

/-- R164: the band has stayed recessive for the span of one octet; quiet-since is back-dated to the last dominant level. -/
def bandFallsQuiet (s : State) : State :=
  if s.band.quietSince.isNone ∧ s.band.lastDominant + octetSpan ≤ s.now then
    s.updBand fun b => { b with quietSince := some b.lastDominant }
  else s

/-- R165: the required quiet after `n` collisions: 2 ms, then 3 × n + 0.25 × s ms. -/
def requiredQuiet (n : Nat) (own : Station) : Time := if n = 0 then ms 2 else ms (3 * n) + 24 * own

/-- A bit time of the control band, 1/19.2 ms (10). -/
def bitTime : Time := 5

/-- R165: the required quiet `need` ends within the bit time of the start edge, and has ended (log 48). -/
def StartEdge.joins (e : StartEdge) (need now : Time) : Bool :=
  decide (e.heardAt ≤ e.quietSince + need ∧ e.quietSince + need ≤ now ∧ now < e.heardAt + bitTime)

/-- R165: the required quiet `need` has been reached: on a quiet band, or within the bit time of another's start edge. -/
def Band.quietFor (b : Band) (need now : Time) : Bool :=
  match b.quietSince with
  | some q => decide (q + need ≤ now)
  | none => b.startEdge.any fun e => e.joins need now

/-- R165: the frame in hand is WAITING and the required quiet has been reached. -/
def sendReady (s : State) : Bool :=
  match s.band.hand with
  | some h => h.line.isNone && s.band.quietFor (requiredQuiet h.collisions s.own) s.now
  | none => false

/-- R165: the start edge from which the bits of a frame are timed whose sending begins now: the edge of another station that it
joins (log 48), and on a quiet band its own. -/
def Band.firstEdge (b : Band) (now : Time) : Time :=
  match b.quietSince with
  | some _ => now
  | none => (b.startEdge.map StartEdge.heardAt).getD now

/-- R165: the first start bit goes out, a dominant level, and the station's receiver begins the frame with it (R163; log 29). -/
def startSending (s : State) : State :=
  if sendReady s then
    { s with
      band :=
        { s.band with
          hand := s.band.hand.map fun h => { h with line := s.band.handFrame, replaced := false }
          quietSince := none
          lastDominant := s.now
          startEdge := none
          sendSince := s.band.firstEdge s.now
          receiving := true } }
  else s

/-- R162: the level that the station puts on the band at the present time, a recessive level being `true`. While it is SENDING
these are the bits of the frame on the line, one in each bit time from its first start edge; otherwise it leaves the band at rest. -/
def bandLine (s : State) : Bool :=
  match s.band.hand.bind Hand.line with
  | some f => (frameBits (oct s.own) f).getD ((s.now - s.band.sendSince) / bitTime) true
  | none => true

/-- The entry of the frame in hand leaves the queue, and the next first entry comes into hand. -/
def Band.removeHand (b : Band) : Band :=
  match b.hand with
  | none => b
  | some h =>
    let b := { b with hand := none }
    (match h.cls with
      | .call => { b with calls := b.calls.tail }
      | .offer => { b with offer := none }
      | .service => { b with services := b.services.tail }).takeHand

/-- R163: the receiver hunts. -/
def hunt (s : State) : State := s.updBand fun b => { b with receiving := false }

/-- R166, R167: the frame on the line has gone out whole, and the own echo with it (R170). A queued OFFER replaced meanwhile
keeps its entry. -/
def sendingDone (s : State) : State :=
  match s.band.hand with
  | none => s
  | some h =>
    match h.line with
    | none => s
    | some f =>
      let s := ((hunt s).count fun c => { c with framesSent := satInc c.framesSent }).emit
        (.frame (frameOctets (oct s.own) f))
      if h.replaced then s.updBand fun b => ({ b with hand := none } : Band).takeHand
      else s.updBand Band.removeHand

/-- R166: a bit heard differs from the bit sent. The 8th collision drops the frame; an OFFER replaced while it was on the line
goes with its entry, the new content with the old (log 43). -/
def sendingCollides (s : State) : State :=
  match s.band.hand with
  | none => s
  | some h =>
    if h.line.isNone then s
    else
      let s := s.count fun c => { c with collisions := satInc c.collisions }
      if h.collisions + 1 < 8 then
        s.updBand fun b =>
          { b with hand := some { h with line := none, collisions := h.collisions + 1, replaced := false } }
      else (s.updBand Band.removeHand).dropFrame

/-! ## Reception (10.4) -/

/-- R163: the frame in reception is discarded and counted, and the receiver hunts again. -/
def discardFrame (s : State) : State := (hunt s).count fun c => { c with checkErrors := satInc c.checkErrors }

/-- R163: the frame in reception goes wrong in this way. A complete frame whose check is right, a length of at most 40, or a
rest shorter than 1 ms is no such event. -/
def receptionWrong (e : RxError) (s : State) : Bool :=
  match e with
  | .badStopBit => true
  | .truncated => s.band.rested s.now
  | .lengthAbove40 len => decide (40 < len.toNat)
  | .badCheck octets => !checkGood octets

/-- R163: a frame in reception goes wrong. While the receiver hunts there is none. -/
def discardReception (e : RxError) (s : State) : State :=
  if s.band.receiving && receptionWrong e s then discardFrame s else s

/-- R163: a complete frame is read when the receiver began it, and the receiver then hunts. Activity that no 1 ms of rest came
before began no frame and is not read. A payload length above 40 is discarded. -/
def readFrame (len : Nat) (act : State → State) (s : State) : State :=
  if s.band.receiving then
    if 40 < len then discardFrame s else act (hunt s)
  else s

/-- The tests of R170 on a received frame that is not the own echo: what becomes of it. -/
inductive RxVerdict where
  | duplicate | ignored | dropped | delivered
  deriving DecidableEq, Repr

/-- R170, tests 2 to 6, the first that applies deciding. -/
def rxVerdict (own : Station) (kind : Nat) (f : Rx) : RxVerdict :=
  if own ≠ 0 ∧ f.sender.toNat = own then .duplicate
  else if f.target ≠ 0 ∧ f.target.toNat ≠ own then .ignored
  else if 31 < f.sender.toNat then .dropped
  else if (kindOf kind).isNone then .dropped
  else .delivered

end Sys2Proof.Machine
end

