-- ==== Sys2Proof/Machine/Offers.lean ====
section
/-! DEFINITION. The Offer Builder's schedule and the Offer Table (01). -/

namespace Sys2Proof.Machine

/-! ## The schedule (1.2) -/

/-- R9, R10: 250 ms have passed since the last hand-over. DESIGN CHOICE (log 51): a last hand-over that is absent holds nothing
up, also not the withdrawal of R10, which is then handed over at once. -/
def spaced (s : State) : Bool :=
  match s.sched.lastHandover with
  | some t => decide (t + offerSpacing ≤ s.now)
  | none => true

/-- R7, R8: an OFFER with the current content is handed over in ACTIVE. -/
def announceOffer (s : State) : State :=
  (handOver (offerFrame s.content) s).updSched fun x =>
    { x with
      lastHandover := some s.now, reference := some s.content, changeDeadline := none, deferred := none,
      periodicDue := some (s.now + offerPeriod) }

/-- R9: an OFFER of a kind is due: it is handed over, or waits for the spacing as the kind that first fell due. -/
def offerDue (kind : DeferredOffer) (s : State) : State :=
  if spaced s then announceOffer s
  else
    s.updSched fun x =>
      { x with deferred := match x.deferred with
                           | some k => some k
                           | none => some kind }

/-- R10: the withdrawal is handed over. -/
def withdrawOffer (s : State) : State :=
  (handOver (offerFrame s.content) s).updSched fun x => { x with lastHandover := some s.now, withdrawalOwed := false }

/-- R5: the schedule as a full reset or a RESTART leaves it. -/
def startSchedule (s : State) : State :=
  { s with
    sched :=
      if s.own = 0 ∨ s.straps.offer = false ∨ (s.straps.modA = false ∧ s.straps.modB = false) then
        OfferSchedule.cleared
      else
        { OfferSchedule.cleared with phase := .starting, firstDue := some (s.now + ms (500 + 20 * s.own)) } }

/-- R6: the first due time is reached. -/
def firstOffer (s : State) : State :=
  if s.sched.phase = .starting ∧ s.due s.sched.firstDue then
    if s.offeringFlag then announceOffer (s.updSched fun x => { x with phase := .active, firstDue := none })
    else s.updSched fun x => { x with phase := .withdrawn, firstDue := none, withdrawalOwed := false }
  else s

/-- R7: the periodic due time is reached. -/
def periodicOffer (s : State) : State :=
  if s.sched.phase = .active ∧ s.due s.sched.periodicDue then offerDue .periodic s else s

/-- R8: the change deadline is reached. -/
def changeOffer (s : State) : State :=
  if s.sched.phase = .active ∧ s.due s.sched.changeDeadline then
    let s := s.updSched fun x => { x with changeDeadline := none }
    if contentDiffers s.content s.sched.reference then offerDue .change s else s
  else s

/-- R9, R10: the spacing ends for a deferred OFFER or an owed withdrawal. -/
def spacingEnds (s : State) : State :=
  if spaced s then
    if s.sched.phase = .active ∧ s.sched.deferred.isSome = true then announceOffer s
    else if s.sched.phase = .withdrawn ∧ s.sched.withdrawalOwed = true then withdrawOffer s
    else s
  else s

/-- R10: the offering flag turns no in ACTIVE. With nothing handed over before, the withdrawal goes out at once (log 51). -/
def flagTurnsNo (s : State) : State :=
  let s := s.updSched fun x =>
    { x with phase := .withdrawn, changeDeadline := none, periodicDue := none, reference := none, deferred := none,
             withdrawalOwed := true }
  if spaced s then withdrawOffer s else s

/-- R10: the offering flag turns yes in WITHDRAWN. -/
def flagTurnsYes (s : State) : State :=
  s.updSched fun x =>
    { x with phase := .active, changeDeadline := some (s.now + changeHoldOff), withdrawalOwed := false }

/-- R8: the comparison of R4 after a change of the builder's inputs. -/
def compareContent (s : State) : State :=
  if s.sched.phase = .active ∧ s.sched.changeDeadline = none ∧ contentDiffers s.content s.sched.reference = true then
    s.updSched fun x => { x with changeDeadline := some (s.now + changeHoldOff) }
  else s

/-- R4, R10: what the builder makes of the changes of an event, from the state before it (log 10). -/
def offerSync (s0 s : State) : State :=
  if s0.offeringFlag ≠ s.offeringFlag then
    match s.sched.phase with
    | .active => if s.offeringFlag then s else flagTurnsNo s
    | .withdrawn => if s.offeringFlag then flagTurnsYes s else s
    | .silent => s
    | .starting => s
  else if offerInputsChanged s0 s then compareContent s
  else s

/-! ## The table (1.4) -/

def insertEntry (e : OfferEntry) : List OfferEntry → List OfferEntry
  | [] => [e]
  | x :: xs => if e.station ≤ x.station then e :: x :: xs else x :: insertEntry e xs

/-- The entry a full table loses: the earliest received-at, of equal ones the higher station number (R12). -/
def oldestEntry : List OfferEntry → Option OfferEntry
  | [] => none
  | x :: xs =>
    match oldestEntry xs with
    | none => some x
    | some y =>
      if x.receivedAt < y.receivedAt ∨ (x.receivedAt = y.receivedAt ∧ y.station < x.station) then some x else some y

def dropEntry (st : Station) (t : List OfferEntry) : List OfferEntry := t.filter fun e => e.station != st

/-- R12: room is made in a full table. -/
def makeRoom (t : List OfferEntry) : List OfferEntry :=
  if t.length < 30 then t
  else
    match oldestEntry t with
    | some e => dropEntry e.station t
    | none => t

def hasEntry (st : Station) (t : List OfferEntry) : Bool := t.any fun e => e.station == st

/-- R12: an entry is created, with its notice, or replaced whole. -/
def storeOffer (e : OfferEntry) (s : State) : State :=
  if hasEntry e.station s.offerTable then
    { s with offerTable := insertEntry e (dropEntry e.station s.offerTable) }
  else { s with offerTable := insertEntry e (makeRoom s.offerTable) }.notify .newEntry

/-- R11 to R13: an OFFER delivered to the Offer Table. -/
def receiveOffer (f : Rx) (s : State) : State :=
  if f.sender = 0 then s
  else
    match readOffer f.payload with
    | .malformed => s.dropFrame
    | .withdrawal => { s with offerTable := dropEntry f.sender.toNat s.offerTable }
    | .entry supply depth a b =>
      storeOffer
        { station := f.sender.toNat, receivedAt := s.now, supply := supply, depth := depth, a := a, b := b } s

/-- R14: the entry of a station lapses when its age has reached 10,000 ms. -/
def expireEntry (st : Station) (s : State) : State :=
  { s with offerTable := s.offerTable.filter fun e => !(e.station == st && decide (e.receivedAt + entryLife ≤ s.now)) }

end Sys2Proof.Machine
end

