-- ==== Sys2Proof/Config.lean ====
section
/-! DEFINITION. What the guide leaves open and the model leaves free: constants without a body. Every statement holds for every
value of them. -/

namespace Sys2Proof.Config

/-- The stage octet of the PROGRESS handed over at a completed rejoin when no stage report was ever made: R96 names
"its last stage", and there is none (log 17). Applied to the model's counter `freeTick`. -/
opaque unreportedStage : Nat → Octet

/-- The network code of the same PROGRESS when no network was ever named (log 17). -/
opaque unreportedNetwork : Nat → BitVec 24

/-- The count of plays done after the 15th play of a prompt with repeat 0: its range is 0..15 and no rule says what it
shows then (log 18). Applied to the model's counter `freeTick`. -/
opaque playsDonePast15 : Nat → BitVec 4

/-- The samples of the stored prompts, by the prompt's place in the table of 08, 8.3, from 0, and the place of the sample in
the play, from 0: the guide gives their durations and not their sound (log 45). -/
opaque promptSample : Nat → Nat → BitVec 16

/-- Whether a tone's sample, by its frequency in Hz and its place in the tone, is rounded away from 0: R151 gives the sine and
its peak and not the rounding (log 45). -/
opaque toneRoundsUp : Nat → Nat → Bool

end Sys2Proof.Config
end

