-- ==== Sys2Proof/Machine/Switch.lean ====
section
/-! DEFINITION. The Carriage Switch (08): base routes, prompt players, the identity burst, and what each destination hears. -/

namespace Sys2Proof.Machine

/-! ## Slots -/

def Switch.slot (c : Switch) : Dest → Slot
  | .speaker => c.speaker
  | .modTx m => c.modTx.get m
  | .lane l => c.laneTx.get l

def Switch.setSlot (c : Switch) (d : Dest) (x : Slot) : Switch :=
  match d with
  | .speaker => { c with speaker := x }
  | .modTx m => { c with modTx := c.modTx.set m x }
  | .lane l => { c with laneTx := c.laneTx.set l x }

/-- The player fixed to a destination, and the destination of a player (08, 8.1). -/
def playerDest : PlayerId → Dest
  | .s => .speaker
  | .a => .modTx .a
  | .b => .modTx .b

/-- The player of a module's transmit stream. -/
def modPlayer : Mod → PlayerId
  | .a => .a
  | .b => .b

/-! ## Base routes (8.2) -/

/-- The source is a lane receive source. -/
def Source.isLane : Source → Bool
  | .laneRx _ _ => true
  | .mic => false
  | .modRx _ => false
  | .silence => false

/-- R143, R144: a record sets a base route. -/
def setRoute (d : Dest) (src : Source) (owner : Owner) (s : State) : State :=
  let x := s.csw.slot d
  if x.base = some src then s
  else
    s.updCsw fun c =>
      c.setSlot d
        { x with base := some src, owner := some owner,
                 holdUntil := if src.isLane then some (s.now + holdTime) else none }

/-- R143: the slot without its base route, when the owner is the one named. -/
def Slot.clearOwned (x : Slot) (owner : Owner) : Slot :=
  if x.owner = some owner then { x with base := none, owner := none, holdUntil := none } else x

/-- R143: a record clears the base route of a destination. -/
def clearRoute (d : Dest) (owner : Owner) (s : State) : State :=
  s.updCsw fun c => c.setSlot d ((c.slot d).clearOwned owner)

/-- A record clears every destination it set (R56, R90). -/
def clearRoutes (owner : Owner) (s : State) : State :=
  s.updCsw fun c =>
    { c with
      speaker := c.speaker.clearOwned owner
      modTx := { a := c.modTx.a.clearOwned owner, b := c.modTx.b.clearOwned owner }
      laneTx :=
        { l1 := c.laneTx.l1.clearOwned owner, l2 := c.laneTx.l2.clearOwned owner,
          l3 := c.laneTx.l3.clearOwned owner, l4 := c.laneTx.l4.clearOwned owner,
          l5 := c.laneTx.l5.clearOwned owner, l6 := c.laneTx.l6.clearOwned owner } }

/-- R144: the pattern hold of a route ends. -/
def endHold (d : Dest) (s : State) : State :=
  if s.due (s.csw.slot d).holdUntil then
    s.updCsw fun c => c.setSlot d { c.slot d with holdUntil := none }
  else s

/-- R145: the gap mark of a lane receive source. -/
def setGapMark (l : Lane) (h : Half) (x : Bool) (s : State) : State :=
  s.updCsw fun c =>
    match h with
    | .a => { c with gapA := c.gapA.set l x }
    | .b => { c with gapB := c.gapB.set l x }

def Switch.gapMark (c : Switch) (l : Lane) : Half → Bool
  | .a => c.gapA.get l
  | .b => c.gapB.get l

/-! ## Prompt players (8.3) -/

/-- The durations of the stored prompts (08, 8.3). -/
def promptTime : Prompt → Time
  | .connecting => ms 2400
  | .pleaseWait => ms 1600
  | .reconnecting => ms 2000
  | .callFailed => ms 2800
  | .holdLine => ms 2200

/-- An end signal to the owner of a prompt, when it has one (R147). -/
def signalOwner (owner : Option Owner) (d : Dest) (p : Option Prompt) (why : SignalReason) (s : State) : State :=
  match owner, p with
  | some o, some q => s.emit (.signal o d (.prompt q) why)
  | _, _ => s

/-- R146: the player starts a prompt and becomes the overlay of its destination. -/
def startPrompt (p : PlayerId) (owner : Owner) (prompt : Prompt) (repeats : BitVec 4) (gap : Time) (s : State) :
    State :=
  s.updCsw fun c =>
    { c with
      players :=
        c.players.set p
          { state := .playing, owner := some owner, prompt := some prompt, repeats := repeats, gap := gap,
            playsDone := 0, since := s.now } }.setSlot (playerDest p)
        { c.slot (playerDest p) with overlay := some .player }

/-- R146: a record asks for a prompt. -/
def requestPrompt (p : PlayerId) (owner : Owner) (prompt : Prompt) (repeats : BitVec 4) (gap : Time) (s : State) :
    State :=
  match (s.csw.slot (playerDest p)).overlay with
  | some .ident => s.emit (.signal owner (playerDest p) (.prompt prompt) .dropped)
  | some .player =>
    let old := s.csw.players.get p
    startPrompt p owner prompt repeats gap (signalOwner old.owner (playerDest p) old.prompt .replaced s)
  | none => startPrompt p owner prompt repeats gap s

/-- The player goes idle: it clears its owner and prompt (R147, R148, R150). -/
def idlePlayer (p : PlayerId) (s : State) : State :=
  s.updCsw fun c =>
    { c with players := c.players.set p { c.players.get p with state := .idle, owner := none, prompt := none } }

def setOverlay (d : Dest) (o : Option Overlay) (s : State) : State :=
  s.updCsw fun c => c.setSlot d { c.slot d with overlay := o }

/-- The player is in PLAYING or GAP with the prompt named, or with any prompt. -/
def playerPlays (s : State) (p : PlayerId) (which : Option Prompt) : Bool :=
  let pl := s.csw.players.get p
  pl.state != .idle && (which.isNone || pl.prompt == which)

/-- A prompt ends with the reason: the player goes idle, the overlay is cleared, the owner is told. -/
def endPrompt (p : PlayerId) (why : SignalReason) (s : State) : State :=
  let pl := s.csw.players.get p
  signalOwner pl.owner (playerDest p) pl.prompt why (setOverlay (playerDest p) none (idlePlayer p s))

/-- R148: a record asks for a prompt to end, one prompt or any. -/
def stopPrompt (p : PlayerId) (which : Option Prompt) (s : State) : State :=
  if playerPlays s p which then endPrompt p .stopped s else s

/-- The count of plays done after one more: past 15 the guide gives no value, and a free one is taken (log 18). -/
def nextPlays (n : BitVec 4) (tick : Nat) : BitVec 4 :=
  if n = BitVec.allOnes 4 then Config.playsDonePast15 tick else n + 1

/-- R147: the play of a prompt reaches its duration. -/
def playEnds (p : PlayerId) (s : State) : State :=
  let pl := s.csw.players.get p
  let due : Bool := match pl.prompt with
    | some q => decide (pl.since + promptTime q ≤ s.now)
    | none => false
  if pl.state = .playing ∧ due then
    let done := nextPlays pl.playsDone s.freeTick
    let s := { s with freeTick := s.freeTick + (if pl.playsDone = BitVec.allOnes 4 then 1 else 0) }
    let s := s.updCsw fun c => { c with players := c.players.set p { pl with playsDone := done } }
    if pl.repeats ≠ 0 ∧ done = pl.repeats then endPrompt p .completed s
    else
      s.updCsw fun c =>
        { c with
          players :=
            c.players.set p
              { pl with playsDone := done, state := if pl.gap = 0 then .playing else .gap, since := s.now } }
  else s

/-- R147: the gap between repeats ends and the next play begins. -/
def playGapEnds (p : PlayerId) (s : State) : State :=
  let pl := s.csw.players.get p
  if pl.state = .gap ∧ pl.since + pl.gap ≤ s.now then
    s.updCsw fun c => { c with players := c.players.set p { pl with state := .playing, since := s.now } }
  else s

/-- A carriage asks for HOLD-LINE on its module's transmit stream (R91, R93). -/
def requestHoldLine (m : Mod) (s : State) : State :=
  requestPrompt (modPlayer m) (.carriage m) .holdLine 0 holdLineGap s

/-- The carriage of the slot waits for its origin (R91). -/
def State.carriageWaits (s : State) (m : Mod) : Bool :=
  match s.car m with
  | some c => c.waiting
  | none => false

/-- R91: on HOLD-LINE's preemption or the burst's end, a waiting carriage asks for HOLD-LINE again. -/
def holdLineAgain (m : Mod) (s : State) : State :=
  if s.carriageWaits m then requestHoldLine m s else s

/-! ## The identity burst (8.4) -/

/-- R150: digits 1 to 8 of a burst. -/
def burstDigits (r : BurstRequest) : List Nat :=
  let n := r.sectionCode.toNat
  let d := [n / 100, n / 10 % 10, n % 10, r.origin / 10 % 10, r.origin % 10, r.carrier / 10 % 10, r.carrier % 10]
  d ++ [d.foldl (· + ·) 0 % 10]

/-- R150, steps 4 and 5: the burst preempts a prompt on its destination and becomes the overlay; a carriage that asks for
HOLD-LINE again on the signal meets IDENT. -/
def burstTakesOver (m : Mod) (s : State) : State :=
  let p := modPlayer m
  let pl := s.csw.players.get p
  if playerPlays s p none then
    let s := signalOwner pl.owner (.modTx m) pl.prompt .preempted
      (setOverlay (.modTx m) (some .ident) (idlePlayer p s))
    if pl.prompt = some .holdLine ∧ pl.owner = some (.carriage m) then holdLineAgain m s else s
  else setOverlay (.modTx m) (some .ident) s

/-- R150: a burst starts. -/
def startBurst (r : BurstRequest) (s : State) : State :=
  burstTakesOver r.dest
    (s.updCsw fun c =>
      { c with
        ident := { c.ident with running := some r, digits := burstDigits r, digit := 1, inTone := true, since := s.now } })

/-- R149: a carriage asks for the identity burst. A replaced request is signalled DROPPED to the carriage slot it came from,
whether or not that slot still holds a record (log 49). -/
def requestBurst (r : BurstRequest) (s : State) : State :=
  let hold := fun (s : State) => s.updCsw fun c => { c with ident := { c.ident with waiting := some r } }
  match s.csw.ident.running, s.csw.ident.waiting with
  | none, _ => startBurst r s
  | some _, none => hold s
  | some run, some p =>
    if p.dest = r.dest then hold s
    else if p.dest = run.dest then
      (hold s).emit (.signal (.carriage p.dest) (.modTx p.dest) .burst .dropped)
    else s.emit (.signal (.carriage r.dest) (.modTx r.dest) .burst .dropped)

/-- R151: the burst has ended: the overlay is cleared, the carriage told, a pending request starts. -/
def burstEnds (r : BurstRequest) (s : State) : State :=
  let s := setOverlay (.modTx r.dest) none s
  let s :=
    if (s.car r.dest).isSome then
      holdLineAgain r.dest (s.emit (.signal (.carriage r.dest) (.modTx r.dest) .burst .completed))
    else s
  let next := s.csw.ident.waiting
  let s := s.updCsw fun c => { c with ident := { c.ident with running := none, waiting := none } }
  match next with
  | some q => startBurst q s
  | none => s

/-- R151: the tone of a digit ends and its gap begins. -/
def toneEnds (s : State) : State :=
  let i := s.csw.ident
  if i.running.isSome ∧ i.inTone ∧ i.since + toneTime ≤ s.now then
    s.updCsw fun c => { c with ident := { c.ident with inTone := false, since := s.now } }
  else s

/-- R151: the gap of a digit ends: the next digit's tone begins, or the burst ends. -/
def toneGapEnds (s : State) : State :=
  let i := s.csw.ident
  match i.running with
  | none => s
  | some r =>
    if !i.inTone ∧ i.since + toneGap ≤ s.now then
      if i.digit < 8 then
        s.updCsw fun c => { c with ident := { c.ident with digit := i.digit + 1, inTone := true, since := s.now } }
      else burstEnds r s
    else s

/-- The frequency of the tone of a digit, in Hz (R151). -/
def toneHertz (d : Nat) : Nat := 600 + 150 * d

/-- The digit whose tone the running burst sends, if it is in a tone (R151). -/
def Ident.toneDigit (i : Ident) : Option Nat :=
  if i.running.isSome && i.inTone then some (i.digits.getD (i.digit - 1) 0) else none

/-- The frequency the running burst sends, if it is in a tone (R151). -/
def Ident.tone (i : Ident) : Option Nat := i.toneDigit.map toneHertz

/-! ## What a destination hears (R141, R142) -/

/-- What feeds a destination at this moment; `destSample` of Voice.lean gives its samples. -/
inductive Heard where
  | silence
  | source (x : Source)
  | prompt (p : Prompt)
  | burst
  deriving DecidableEq, Repr

/-- R141: what a base source delivers: silence from a module without power and from a lane source in a gap. -/
def sourceHeard (s : State) : Source → Heard
  | .mic => .source .mic
  | .modRx m => if (s.mod m).power then .source (.modRx m) else .silence
  | .laneRx l h => if s.csw.gapMark l h then .silence else .source (.laneRx l h)
  | .silence => .silence

/-- R141: what a prompt player delivers: its prompt, or silence between repeats. -/
def playerHeard (pl : Player) : Heard :=
  match pl.state, pl.prompt with
  | .playing, some q => .prompt q
  | _, _ => .silence

/-- R142: the overlay, or the base route once its hold has passed, or silence. -/
def destHears (s : State) (d : Dest) : Heard :=
  let x := s.csw.slot d
  match x.overlay with
  | some .ident => if s.csw.ident.tone.isSome then .burst else .silence
  | some .player =>
    match d with
    | .speaker => playerHeard s.csw.players.s
    | .modTx .a => playerHeard s.csw.players.a
    | .modTx .b => playerHeard s.csw.players.b
    | .lane _ => .silence
  | none =>
    match x.base with
    | some src =>
      match x.holdUntil with
      | some t => if s.now < t then .silence else sourceHeard s src
      | none => sourceHeard s src
    | none => .silence

end Sys2Proof.Machine
end

