-- ==== Sys2Proof/Machine/Lanes.lean ====
section
/-! DEFINITION. The Lane Controller (07): the pattern, the lane view, the probe engines and their checkers, supervision. -/

namespace Sys2Proof.Machine

/-! ## The pattern (R130, R132) -/

/-- A bit enters stage 1 of a 15-stage register and every stage moves up; stage 1 is bit 0. -/
def shiftIn (r : BitVec 15) (b : Bool) : BitVec 15 := (r <<< 1) ||| (if b then 1#15 else 0#15)

/-- The exclusive-or of stages 15 and 14. -/
def nextBit (r : BitVec 15) : Bool := r.getLsbD 14 != r.getLsbD 13

/-- The register after `n` bits of free running. -/
def freeRun : Nat → BitVec 15 → BitVec 15
  | 0, r => r
  | n + 1, r => freeRun n (shiftIn r (nextBit r))

/-- The next `n` bits of the register, the first as bit `i` of the word, and the register after them. -/
def patternBits : Nat → Nat → BitVec 15 → BitVec 32 → BitVec 32 × BitVec 15
  | 0, _, r, acc => (acc, r)
  | n + 1, i, r, acc =>
    patternBits n (i + 1) (shiftIn r (nextBit r)) (if nextBit r then acc ||| (1#32 <<< i) else acc)

/-- The next word of a register, bit 0 the first bit on the line (log 8), and the register after it. -/
def nextWord (r : BitVec 15) : BitVec 32 × BitVec 15 := patternBits 32 0 r 0#32

/-- The first `n` bits of a received word, from bit `i`, shifted into a register. -/
def loadBits : Nat → Nat → BitVec 32 → BitVec 15 → BitVec 15
  | 0, _, _, r => r
  | n + 1, i, w, r => loadBits n (i + 1) w (shiftIn r (w.getLsbD i))

/-- The seed: station number × 256 + tag, mod 32,767, with 1 in place of 0. -/
def seedOf (station tag : Nat) : BitVec 15 :=
  let n := (station * 256 + tag) % 32767
  if n = 0 then 1#15 else BitVec.ofNat 15 n

/-- Word `n` of the pattern from a seed, counted from 0. -/
def seedWord (seed : BitVec 15) (n : Nat) : BitVec 32 := (nextWord (freeRun (32 * n) seed)).1

/-- The number of ones among the low `n` bits. -/
def onesBelow : Nat → BitVec 32 → Nat
  | 0, _ => 0
  | n + 1, w => onesBelow n w + (if w.getLsbD n then 1 else 0)

/-! ## The clock compare (R136) -/

def compareUp (c : Int) : Int := if c < 127 then c + 1 else 127
def compareDown (c : Int) : Int := if -127 < c then c - 1 else -127

/-- The compare after one edge. -/
def compareEdge (c : Int) : ClockEdge → Int
  | .ownBit => compareUp c
  | .receivedBit => compareDown c

/-- The compare after a run of edges, in the order taken. -/
def clockCompare (c : Int) (edges : List ClockEdge) : Int := edges.foldl compareEdge c

/-- The largest magnitude the compare has along a run of edges, from its value before them on. -/
def comparePeak (c : Int) : List ClockEdge → Nat
  | [] => c.natAbs
  | e :: es => max c.natAbs (comparePeak (compareEdge c e) es)

/-! ## The lane view (7.1, 7.2) -/

/-- The half on which a lane's owner receives (07, 7.1). -/
def receiveHalfOf : Owner → Half
  | .origin => .b
  | .carriage _ => .a
  | .laneTest => .a

/-- The engine that serves an owner (07, 7.1). -/
def engineOf : Owner → EngineId
  | .origin => .e0
  | .carriage .a => .e1
  | .carriage .b => .e2
  | .laneTest => .e0

/-- The lanes in the order of the search from the station's start lane (R123). -/
def searchOrder (own : Station) : List Lane :=
  let k := (own - 1) % 6
  allLanes.drop k ++ allLanes.take k

/-- R123: the first lane of the search that is in the mask and free for choosing. Station 0 chooses none (R129). -/
def chooseLane (mask : LaneMask) (s : State) : Option Lane :=
  if s.own = 0 then none
  else (searchOrder s.own).find? fun l => inMask mask l && (s.lane l).freeForChoosing

/-- R125: the origin record may take the lane: not OWN, no owner, no quarantine. Station 0 takes none (R129). -/
def originMayTake (l : Lane) (s : State) : Bool :=
  s.own != 0 && (s.lane l).occupancy != .own && (s.lane l).owner.isNone && (s.lane l).quarantineUntil.isNone

/-- R122: a lane that has become free for choosing gives its notices. -/
def noticeIfFree (l : Lane) (s : State) : State :=
  if (s.lane l).freeForChoosing then s.notify (.laneFree l) else s

/-- R124, R125: a lane becomes OWN with the taker as owner; the half it drives is not read and counts as carrier (R121). -/
def takeLane (l : Lane) (owner : Owner) (s : State) : State :=
  s.updLane l fun x =>
    let x := { x with occupancy := .own, owner := some owner, quietSince := none }
    match x.driven with
    | some h => x.setHeard h false
    | none => x

/-- R127: a quarantine is asked for. -/
def quarantineLane (l : Lane) (s : State) : State :=
  s.updLane l fun x =>
    let until_ := s.now + quarantineTime
    match x.quarantineUntil with
    | some q => if q < until_ then { x with quarantineUntil := some until_ } else x
    | none => { x with quarantineUntil := some until_ }

/-- R127: the quarantine has ended. -/
def endQuarantine (l : Lane) (s : State) : State :=
  if s.due (s.lane l).quarantineUntil then noticeIfFree l (s.updLane l fun x => { x with quarantineUntil := none })
  else s

/-- R122: a BUSY lane has been quiet for 300 ms. -/
def laneTurnsFree (l : Lane) (s : State) : State :=
  let x := s.lane l
  if x.occupancy = .busy ∧ s.due (x.quietSince.map (· + laneQuiet)) then
    noticeIfFree l (s.updLane l fun x => { x with occupancy := .free })
  else s

/-! ## Supervision (7.5) -/

/-- R138: supervision begins; a gap under way counts from now. -/
def superviseLane (l : Lane) (s : State) : State :=
  match (s.lane l).owner with
  | none => s
  | some o =>
    let h := receiveHalfOf o
    if (s.lane l).heard h then s.updLane l fun x => { x with supervised := true, gapStart := none }
    else setGapMark l h true (s.updLane l fun x => { x with supervised := true, gapStart := some s.now })

/-- R138, R145: supervision ends and the gap mark with it. -/
def endSupervision (l : Lane) (s : State) : State :=
  let x := s.lane l
  if x.supervised then
    let s := s.updLane l fun x => { x with supervised := false, gapStart := none }
    match x.owner with
    | some o => setGapMark l (receiveHalfOf o) false s
    | none => s
  else s

/-! ## Engines (7.3) -/

/-- The checker in SETTLE with its counts cleared; carrier already heard counts from the entry (R132). -/
def Engine.settle (x : Engine) (heard : Bool) (now : Time) : Engine :=
  { x with checker := .settle, seekLoaded := false, seekFrom := none,
           settleFrom := if heard then some now else none, gapFrom := none, steady := 0, compared := 0, errors := 0,
           compare := 0, run := 0, lastWord := none }

/-- The halves of a user's role (07, 7.1); a lane test transmits or receives by its role. -/
def startHalves (user : Owner) (generate check : Bool) : Option Half × Option Half :=
  match user with
  | .origin => (some .a, some .b)
  | .carriage _ => (some .b, some .a)
  | .laneTest => (if generate then some .a else none, if check then some .a else none)

/-- R131: an engine is started for its user on a lane. A call probe starts generator and checker; a lane test the one of
its role. -/
def startEngine (user : Owner) (l : Lane) (seed : BitVec 15) (generate check : Bool) (s : State) : State :=
  let halves := startHalves user generate check
  let heard := match halves.2 with
    | some h => (s.lane l).heard h
    | none => false
  s.updEngine (engineOf user) fun _ =>
    let x : Engine :=
      { Engine.idle with
        user := some user, lane := some l, transmitHalf := halves.1, receiveHalf := halves.2,
        generator := if generate then .running else .idle, genSeed := seed, genStart := s.now, checkStart := s.now }
    if check then x.settle heard s.now else x

/-- The engine becomes idle, without a report (R131). -/
def Engine.stopped (x : Engine) : Engine :=
  { x with user := none, lane := none, transmitHalf := none, receiveHalf := none, generator := .idle,
           checker := .idle, seekLoaded := false, seekFrom := none, settleFrom := none, gapFrom := none }

def stopEngine (e : EngineId) (s : State) : State := s.updEngine e Engine.stopped

/-- R131, end of work: the checker has ended and the generator is DONE. -/
def Engine.finish (x : Engine) : Engine :=
  if x.checker = .ended ∧ x.generator = .done then x.stopped else x

/-- R131, checker restart, asked for by a carriage on the lane it holds. -/
def restartChecker (m : Mod) (l : Lane) (s : State) : State :=
  let heard := (s.lane l).heard .a
  s.updEngine (engineOf (.carriage m)) fun x =>
    let x := if x.user.isSome then x else
      { x with user := some (.carriage m), lane := some l, transmitHalf := some .b, receiveHalf := some .a,
               generator := .done }
    ({ x with checkStart := s.now, restarts := 0 }).settle heard s.now

/-- R126: the owner releases its lane: driving, engine and supervision end. A lane held for checking only loses its hold. -/
def releaseLane (l : Lane) (owner : Owner) (s : State) : State :=
  let x := s.lane l
  if x.owner = some owner then
    let s := endSupervision l s
    let s := if (s.engine (engineOf owner)).lane = some l then stopEngine (engineOf owner) s else s
    if x.occupancy = .own then
      s.updLane l fun x =>
        { x with occupancy := .busy, owner := none,
                 quietSince := if x.carrierA || x.carrierB then none else some s.now }
    else noticeIfFree l (s.updLane l fun x => { x with owner := none })
  else s

/-- R140: a RESTART releases a lane that is OWN or held; it becomes BUSY, and turns FREE after 300 ms of quiet (R122). -/
def restartLane (x : LaneEntry) (now : Time) : LaneEntry :=
  let x := { x with supervised := false, gapStart := none }
  if x.owner.isSome || x.occupancy == .own then
    { x with
      occupancy := .busy, owner := none,
      quietSince := if x.carrierA || x.carrierB then none else some now }
  else x

def restartLanes (s : State) : State :=
  { s with
    lanes :=
      { l1 := restartLane s.lanes.l1 s.now, l2 := restartLane s.lanes.l2 s.now, l3 := restartLane s.lanes.l3 s.now,
        l4 := restartLane s.lanes.l4 s.now, l5 := restartLane s.lanes.l5 s.now, l6 := restartLane s.lanes.l6 s.now }
    engines :=
      { e0 := s.engines.e0.stopped, e1 := s.engines.e1.stopped, e2 := s.engines.e2.stopped } }

/-! ## Carrier (7.1) -/

/-- An engine hears carrier return on its receive half (R132 to R134). In SEEK this ends a gap that began in STEADY (log 46). -/
def Engine.carrierOn (x : Engine) (now : Time) : Engine :=
  match x.checker with
  | .settle => { x with settleFrom := some now }
  | .steady => { x with gapFrom := none }
  | .check => { x with gapFrom := none }
  | .seek => { x with gapFrom := none }
  | .idle => x
  | .ended => x

/-- An engine loses carrier on its receive half (R132, R133, R134). -/
def Engine.carrierOff (x : Engine) (now : Time) : Engine :=
  match x.checker with
  | .settle => { x with settleFrom := none }
  | .seek =>
    { x with checker := .settle, seekLoaded := false, seekFrom := none, settleFrom := none, gapFrom := none, run := 0,
             lastWord := none }
  | .steady => { x with gapFrom := some now }
  | .check => { x with gapFrom := some now }
  | .idle => x
  | .ended => x

/-- The engine listens on this half of this lane. -/
def Engine.listens (x : Engine) (l : Lane) (h : Half) : Bool := x.lane == some l && x.receiveHalf == some h

def PerEngine.map {α : Type} (p : PerEngine α) (f : α → α) : PerEngine α :=
  { e0 := f p.e0, e1 := f p.e1, e2 := f p.e2 }

/-- R138: a dropout is reported to the owner of a lane. -/
def reportDropout (o : Owner) (s : State) : State :=
  match o with
  | .origin => s.updCoc fun c => { c with dropouts := satInc c.dropouts }
  | .carriage m => s.updCar m fun c => { c with dropouts := satInc c.dropouts }
  | .laneTest => s

/-- R182: a gap shorter than 40 ms in STEADY or CHECK of a lane test ends; also one in which a wrong word brought the checker from
STEADY to SEEK (log 46). -/
def countTestGap (l : Lane) (h : Half) (s : State) : State :=
  let x := s.engines.e0
  if x.user = some .laneTest ∧ x.listens l h = true ∧ x.gapFrom.isSome = true then
    { s with svc := { s.svc with test := s.svc.test.map fun t => { t with dropouts := satInc t.dropouts } } }
  else s

/-- R138: a supervised gap on this half ends as a dropout. -/
def endGap (l : Lane) (h : Half) (s : State) : State :=
  let x := s.lane l
  match x.owner with
  | some o =>
    if x.supervised ∧ x.gapStart.isSome = true ∧ receiveHalfOf o = h then
      reportDropout o (setGapMark l h false (s.updLane l fun x => { x with gapStart := none }))
    else s
  | none => s

/-- R138, R145: a supervised half loses carrier. -/
def beginGap (l : Lane) (h : Half) (s : State) : State :=
  let x := s.lane l
  match x.owner with
  | some o =>
    if x.supervised ∧ receiveHalfOf o = h then
      setGapMark l h true (s.updLane l fun x => { x with gapStart := some s.now })
    else s
  | none => s

/-- The half is read by the carrier detector: the station does not drive it (R121). -/
def halfRead (l : Lane) (h : Half) (s : State) : Bool := (s.lane l).driven != some h

/-- R121, R122: carrier is declared heard on a half. -/
def carrierRises (l : Lane) (h : Half) (s : State) : State :=
  if halfRead l h s && !(s.lane l).heard h then
    let s := s.updLane l fun x =>
      { x.setHeard h true with
        quietSince := none, occupancy := if x.occupancy = .free then .busy else x.occupancy }
    let s := countTestGap l h (endGap l h s)
    { s with engines := s.engines.map fun x => if x.listens l h then x.carrierOn s.now else x }
  else s

/-- R121: carrier is declared not heard on a half. -/
def carrierFalls (l : Lane) (h : Half) (s : State) : State :=
  if halfRead l h s && (s.lane l).heard h then
    let s := s.updLane l fun x =>
      let y := x.setHeard h false
      if !y.heard (otherHalf h) && x.driven.isNone then { y with quietSince := some s.now } else y
    let s := beginGap l h s
    { s with engines := s.engines.map fun x => if x.listens l h then x.carrierOff s.now else x }
  else s

/-! ## The checker (R132 to R137) -/

/-- R132: 40 ms of unbroken carrier have been heard. The word then on the line is not loaded (log 52). -/
def settleEnds (e : EngineId) (s : State) : State :=
  let x := s.engine e
  if x.checker = .settle ∧ s.due (x.settleFrom.map (· + settleTime)) then
    s.updEngine e fun x =>
      { x with checker := .seek, seekLoaded := false, seekFrom := some s.now, run := 0, lastWord := none }
  else s

/-- R133, R134: a carrier gap that began in STEADY or CHECK has reached 40 ms, though a word framed in it has brought the checker
to SEEK meanwhile (log 46). The restart count is kept. -/
def checkerGapResets (e : EngineId) (s : State) : State :=
  let x := s.engine e
  if (x.checker = .steady ∨ x.checker = .check ∨ x.checker = .seek) ∧ s.due (x.gapFrom.map (· + gapLimit)) then
    s.updEngine e fun x => x.settle false s.now
  else s

/-- R130: a call probe's generator has sent its 600 ms. -/
def generatorEnds (e : EngineId) (s : State) : State :=
  let x := s.engine e
  if x.generator = .running ∧ x.user ≠ some .laneTest ∧ x.genStart + patternTime ≤ s.now then
    s.updEngine e fun x => ({ x with generator := .done } : Engine).finish
  else s

/-- How a received word can end a checker. -/
inductive WordEnd where
  | stuck | nosync | complete
  deriving DecidableEq, Repr

/-- The identical run after a word (R135). -/
def Engine.runAfter (x : Engine) (w : BitVec 32) : Nat := if x.lastWord = some w then x.run + 1 else 1

/-- R133: a word in STEADY with `err` bits in error. A carrier gap in which it was framed goes on, also in SEEK (log 46). -/
def Engine.steadyWord (x : Engine) (w : BitVec 32) (err : Nat) : Engine × Option WordEnd :=
  let x := { x with run := x.runAfter w, lastWord := some w }
  if 7 ≤ x.run then ({ x with checker := .ended }, some .stuck)
  else if err = 0 then
    if x.steady + 1 < 16 then ({ x with checker := .steady, steady := x.steady + 1 }, none)
    else ({ x with checker := .check, steady := 16, compared := 0, errors := 0, compare := 0 }, none)
  else if x.restarts + 1 < 8 then
    ({ x with checker := .seek, seekLoaded := false, seekFrom := none, steady := 0, restarts := x.restarts + 1, run := 0,
              lastWord := none }, none)
  else ({ x with checker := .ended, steady := 0, restarts := 8 }, some .nosync)

/-- R136: bit clocks reach a checker, one by one in the order taken. Only in CHECK do they move the compare. -/
def Engine.clocked (x : Engine) (edges : List ClockEdge) : Engine :=
  if x.checker = .check then { x with compare := clockCompare x.compare edges } else x

/-- R134: a word in CHECK with `err` bits in error; `goal` words end it. -/
def Engine.checkWord (x : Engine) (w : BitVec 32) (err goal : Nat) : Engine × Option WordEnd :=
  let x := { x with run := x.runAfter w, lastWord := some w }
  if 7 ≤ x.run then ({ x with checker := .ended }, some .stuck)
  else
    let x := { x with errors := satAdd x.errors err, compared := x.compared + 1 }
    if x.compared < goal then (x, none) else ({ x with checker := .ended }, some .complete)

/-- R132, SEEK, with the waiting of 7.4: a word completed now is the next whole word received. DESIGN CHOICE (log 52): a word began
one word time before its end, and one that began before SETTLE ended is passed over; one that began at that moment is whole. -/
def Engine.takesWord (x : Engine) (now : Time) : Bool :=
  match x.seekFrom with
  | some t => decide (t + wordTime ≤ now)
  | none => true

/-- A word received now by a checker in SEEK, STEADY or CHECK (R132 to R135), its bit clocks taken before it (`countClocks`). SEEK
loads the first whole word (log 52). The predictor first steps through the bits of the gap before the word, then through the
word. Every word that the half framed is compared, also one framed before its carrier is declared heard again (log 46). -/
def Engine.word (x : Engine) (i : WordIn) (goal : Nat) (now : Time) : Engine × Option WordEnd :=
  if x.checker = .seek ∧ x.seekLoaded = false then
    if x.takesWord now then
      ({ x with predictor := freeRun 17 (loadBits 15 0 i.word x.predictor), seekLoaded := true, seekFrom := none }, none)
    else (x, none)
  else
    let p := nextWord (freeRun i.gapBits x.predictor)
    let err := onesBelow 32 (p.1 ^^^ i.word)
    match x.checker with
    | .seek => ({ x with predictor := p.2 }).steadyWord i.word err
    | .steady => ({ x with predictor := p.2 }).steadyWord i.word err
    | .check => ({ x with predictor := p.2 }).checkWord i.word err goal
    | .idle => (x, none)
    | .settle => (x, none)
    | .ended => (x, none)

/-- R137: the outcome of a completed check of a call probe. -/
def Engine.checkOutcome (x : Engine) : ProbeOutcome :=
  if 8 < x.errors.toNat then .errors else if 16 < x.compare.natAbs then .drift else .pass

/-- The checker is at work. -/
def Engine.checking (x : Engine) : Bool :=
  x.checker == .settle || x.checker == .seek || x.checker == .steady || x.checker == .check

/-! ## What a half carries (R126) -/

/-- What the station puts on a lane's half. -/
inductive HalfSends where
  | nothing | pattern | stream (h : Heard)
  deriving DecidableEq, Repr

/-- R126, R175: nothing on a half the station does not drive; the pattern while the owner's generator runs; then the
stream the switch delivers, and none on a lane held for a lane test (08, 8.1). -/
def halfSends (s : State) (l : Lane) (h : Half) : HalfSends :=
  let x := s.lane l
  if s.inReset || x.driven != some h then .nothing
  else
    match x.owner with
    | some o =>
      let g := s.engine (engineOf o)
      if g.generator = .running ∧ g.lane = some l then .pattern
      else if o = .laneTest then .nothing
      else .stream (destHears s (.lane l))
    | none => .nothing

end Sys2Proof.Machine
end

