-- ==== Sys2Proof/Machine/Modules.lean ====
section
/-! DEFINITION. The Radio Module Controller's own operations (06): orders, the network table, settling, penalties, power. What
they bring about at the carriages is in `Carriages.lean`. -/

namespace Sys2Proof.Machine

/-! ## The network table (6.5) -/

/-- Table order: quality highest first, ties by the lower code. -/
def netBefore (x y : Net) : Bool := decide (y.quality < x.quality) || (x.quality == y.quality && decide (x.code < y.code))

def insertNet (x : Net) : List Net → List Net
  | [] => [x]
  | y :: ys => if netBefore x y then x :: y :: ys else y :: insertNet x ys

def sortNets (t : List Net) : List Net := t.foldr insertNet []

/-- R107, step 2: an entry joins a list without duplicates: the higher quality is kept, equal qualities are merged. -/
def mergeNet (t : List Net) (x : Net) : List Net :=
  match netOf t x.code with
  | none => t ++ [x]
  | some _ =>
    t.map fun y =>
      if y.code = x.code then
        if y.quality < x.quality then x
        else if y.quality = x.quality then { y with barred := y.barred || x.barred } else y
      else y

/-- R107, step 1: the entries of a SCAN-LIST, clamped, without codes above 999,999. -/
def scannedNets (entries : List ScanEntry) : List Net :=
  (entries.filter fun e => decide (e.code.toNat ≤ 999999)).map fun e =>
    { code := e.code.toNat, quality := min e.quality.toNat 63, barred := e.flags.getLsbD 0, penalisedUntil := none }

/-- R107: the new table of a SCAN-LIST, from its entries and the table before it. -/
def scanTable (entries : List ScanEntry) (old : List Net) : List Net :=
  ((sortNets ((scannedNets entries).foldl mergeNet [])).take 8).map fun n =>
    { n with penalisedUntil := match netOf old n.code with
                               | some o => o.penalisedUntil
                               | none => none }

/-- R107: the selected network after a new table: cleared when absent from it or barred in it. -/
def keptSelection (t : List Net) (selected : Option Code) : Option Code :=
  match selected with
  | none => none
  | some c =>
    match netOf t c with
    | some n => if n.barred then none else some c
    | none => none

/-- R111: the penalty of a code begins. A code not in the table is not recorded. -/
def penaliseNet (t : List Net) (code : Code) (until_ : Time) : List Net :=
  t.map fun n => if n.code = code then { n with penalisedUntil := some until_ } else n

/-- R112: the quality of a code, and the table sorted again. -/
def setQuality (t : List Net) (code : Code) (q : Nat) : List Net :=
  sortNets (t.map fun n => if n.code = code then { n with quality := q } else n)

/-! ## Orders (6.3) -/

/-- An order is sent on the link and becomes the order in flight. -/
def sendOrder (m : Mod) (k : OrderKind) (code : Code) (s : State) : State :=
  (s.updMod m fun r => { r with inFlight := some { kind := k, deadline := s.now + orderTime k, code := code } }).emit
    (.order m k code)

/-- R108: a SCAN is sent, which sets the last scan time. -/
def startScan (m : Mod) (st : ModuleState) (s : State) : State :=
  sendOrder m .scan 0 (s.updMod m fun r => { r with state := st, lastScan := some s.now, rescanDue := none })

/-- A SELECT is sent and the module enters SELECTING. A rescan due does not outlive NO-SERVICE (log 42). -/
def startSelect (m : Mod) (code : Code) (s : State) : State :=
  sendOrder m .select code (s.updMod m fun r => { r with state := .selecting, rescanDue := none })

/-- R115, R116: a DIAL is sent and the module enters DIALING; from now it has a call in progress (R100). -/
def startDial (m : Mod) (s : State) : State :=
  sendOrder m .dial 0 (s.updMod m fun r => { r with state := .dialing, callInProgress := true, rescanDue := none })

/-- R102: HANGUP is ordered, whatever is in flight. -/
def orderHangup (m : Mod) (s : State) : State :=
  sendOrder m .hangup 0
    (s.updMod m fun r => { r with state := .hangingUp, pendingOrder := none, progressDeadline := none, rescanDue := none })

/-- R102: ABORT is ordered for the SCAN in flight; the module stays REFRESHING. -/
def orderAbort (m : Mod) (s : State) : State := sendOrder m .abort 0 s

/-- The order in flight is of the kind. -/
def Module.flying (r : Module) (k : OrderKind) : Bool :=
  match r.inFlight with
  | some o => o.kind == k
  | none => false

/-- The order in flight is of the kind and its deadline is due. -/
def orderDue (m : Mod) (k : OrderKind) (s : State) : Bool :=
  match (s.mod m).inFlight with
  | some o => o.kind == k && decide (o.deadline ≤ s.now)
  | none => false

/-- The order in flight has ended. -/
def landOrder (m : Mod) (s : State) : State := s.updMod m fun r => { r with inFlight := none }

/-! ## Settling (R108, R109) -/

/-- R108: an idle READY module whose refresh time has passed starts its refresh scan, unless the supply is LOW. -/
def refreshCheck (m : Mod) (s : State) : State :=
  let r := s.mod m
  if r.state = .ready ∧ r.link = false ∧ r.inFlight = none ∧ s.supply.state ≠ .low ∧
      s.due (r.lastScan.map (· + refreshTime)) = true then
    startScan m .refreshing s
  else s

/-- R109, case 1: READY is entered, with the refresh check of R108, or kept. -/
def enterReady (m : Mod) (s : State) : State :=
  if (s.mod m).state = .ready then s
  else refreshCheck m (s.updMod m fun r => { r with state := .ready, rescanDue := none })

/-- R109, case 4: NO-SERVICE is entered, or kept with the rescan due it holds. -/
def enterNoService (m : Mod) (s : State) : State :=
  s.updMod m fun r =>
    if r.state = .noService then { r with selected := none }
    else { r with state := .noService, selected := none, rescanDue := some (s.now + rescanTime) }

/-- R109: what a module without a carriage link, an order in flight or a pending order does in settling. -/
inductive SettleCase where
  | keep
  | select (code : Code)
  | noService
  deriving DecidableEq, Repr

/-- A usable network of at least the quality plus 6, first in table order, other than `code`. -/
def betterNet (t : List Net) (code : Code) (quality : Nat) : Option Code :=
  (t.find? fun n => n.usable && n.code != code && decide (quality + 6 ≤ n.quality)).map Net.code

def settleCase (t : List Net) (selected : Option Code) : SettleCase :=
  match selected with
  | some c =>
    if codeUsable t c then
      match betterNet t c (qualityOf t c) with
      | some d => .select d
      | none => .keep
    else
      match firstUsable t with
      | some d => .select d
      | none => .noService
  | none =>
    match firstUsable t with
    | some d => .select d
    | none => .noService

/-- The module can settle: powered and started, no carriage link, nothing in flight, nothing pending. -/
def Module.canSettle (r : Module) : Bool :=
  r.power && r.state != .powering && !r.link && r.inFlight.isNone && r.pendingOrder.isNone

/-- R109 -/
def settle (m : Mod) (s : State) : State :=
  let r := s.mod m
  if r.canSettle then
    match settleCase r.table r.selected with
    | .keep => enterReady m s
    | .select c => startSelect m c s
    | .noService => enterNoService m s
  else s

/-- R111: a network of a module's table is penalised; a module without a carriage link settles. -/
def penalise (m : Mod) (code : Code) (s : State) : State :=
  settle m (s.updMod m fun r => { r with table := penaliseNet r.table code (s.now + penaltyTime) })

/-- R111: the penalty of a network has ended. -/
def penaltyOver (m : Mod) (code : Code) (s : State) : State :=
  let due := match netOf (s.mod m).table code with
    | some n => s.due n.penalisedUntil
    | none => false
  if due then
    settle m (s.updMod m fun r =>
      { r with table := r.table.map fun n => if n.code = code then { n with penalisedUntil := none } else n })
  else s

/-! ## Dial attempts (R114, R115) -/

/-- What a dial attempt's first order is (R115). -/
inductive DialChoice where
  | impossible
  | dial (code : Code)
  | select (code : Code)
  deriving DecidableEq, Repr

/-- R115: the usable networks outside the list are the candidates. -/
def dialChoice (t : List Net) (selected : Option Code) (tried : List Code) : DialChoice :=
  let cand := t.filter fun n => n.usable && !tried.contains n.code
  match cand with
  | [] => .impossible
  | first :: _ =>
    match selected with
    | some c =>
      match netOf cand c with
      | some k =>
        if cand.any fun n => n.code != c && decide (k.quality + 6 ≤ n.quality) then .select first.code else .dial c
      | none => .select first.code
    | none => .select first.code

/-- R114: the arbiter commits a module to a carriage: the link is set, the pending slot emptied, a refresh scan aborted. -/
def commitModule (m : Mod) (s : State) : State :=
  let s := s.updMod m fun r => { r with link := true, pendingOrder := none }
  if (s.mod m).state = .refreshing ∧ (s.mod m).flying .scan = true then orderAbort m s else s

/-- R118: the carriage link is cleared, a pending dial attempt emptied, and the module settles when nothing is in flight. -/
def clearLink (m : Mod) (s : State) : State :=
  settle m (s.updMod m fun r => { r with link := false, pendingOrder := none })

/-- R97, step 5: a call in progress is ended with HANGUP, whatever is in flight (R100, R102). -/
def endModuleCall (m : Mod) (s : State) : State := if (s.mod m).callInProgress then orderHangup m s else s

/-! ## Power (6.4) -/

/-- R105, steps 1 to 4: the module is switched off. -/
def switchOff (m : Mod) (s : State) : State :=
  (s.updMod m fun r =>
    let n := r.powerCycles + 1
    { r with
      power := false, inFlight := none, pendingOrder := none, poweringDeadline := none, rescanDue := none,
      progressDeadline := none, table := [], selected := none, timeouts := 0, powerCycles := n,
      callInProgress := false,
      state := if n < 3 then .fault else .disabled,
      powerOnTime := some (s.now + (if n < 3 then offTime else disabledTime)) }).count
    fun c => { c with moduleFaults := satInc c.moduleFaults }

/-- R105: the power-on time is reached. -/
def switchOn (m : Mod) (s : State) : State :=
  if s.due (s.mod m).powerOnTime then
    s.updMod m fun r =>
      { r with power := true, powerOnTime := none, poweredAt := s.now, poweringDeadline := some (s.now + poweringTime),
               state := .powering,
               powerCycles := if r.state = .disabled then 0 else r.powerCycles }
  else s

/-- The power-enable line of a position (R175). -/
def powerLine (s : State) (m : Mod) : Bool := !s.inReset && (s.mod m).power

/-- R103: a well-formed report clears the consecutive-timeout count. A link without power is not read (R99). -/
def reportTaken (m : Mod) (s : State) : State := s.updMod m fun r => { r with timeouts := 0 }

end Sys2Proof.Machine
end

