-- ==== Sys2Proof/Machine/Panel.lean ====
section
/-! DEFINITION. The Caller Panel and the Supply Monitor (09): the button filter, the lamp pattern generator, the supply filter. -/

namespace Sys2Proof.Machine

/-! ## The button (9.1) -/

/-- R153: 10 ms have passed since the last sample, or since the end of the full reset (log 44). -/
def ButtonFilter.sampleDue (b : ButtonFilter) (now : Time) : Bool := decide (b.sampledAt + buttonPeriod ≤ now)

/-- R153: one sample of the button; the filter after it. -/
def ButtonFilter.sample (b : ButtonFilter) (pressed : Bool) (now : Time) : ButtonFilter :=
  if pressed = b.pressed then { b with disagree := 0, sampledAt := now }
  else if b.disagree + 1 < 3 then { b with disagree := b.disagree + 1, sampledAt := now }
  else { pressed := pressed, disagree := 0, sampledAt := now }

/-- R153: the sample is a press: the filtered state turns from RELEASED to PRESSED. -/
def ButtonFilter.pressedBy (b : ButtonFilter) (pressed : Bool) (now : Time) : Bool :=
  !b.pressed && (b.sample pressed now).pressed

/-! ## The lamp (9.2) -/

/-- Period and on-time of a periodic pattern (09, 9.2). -/
def lampTimes : LampPattern → Option (Time × Time)
  | .dark => none
  | .lit => none
  | .seek => some (ms 1000, ms 500)
  | .fail => some (ms 250, ms 125)
  | .fault => some (ms 2000, ms 100)

/-- R155: the wanted pattern: DARK is replaced by FAULT at number 0 or under the duplicate-number fault. -/
def wantedPattern (s : State) (requested : LampPattern) : LampPattern :=
  if requested = .dark ∧ (s.own = 0 ∨ s.band.dupFault = true) then .fault else requested

/-- R156: a pattern starts, at position 0; a change of the running pattern sets the period count to 0. -/
def Lamp.run (x : Lamp) (p : LampPattern) (now : Time) : Lamp :=
  { x with running := p, pending := none, since := now, on := true,
           periodCount := if x.running = p then x.periodCount else 0 }

/-- R156: the wanted pattern has been formed. -/
def Lamp.want (x : Lamp) (w : LampPattern) (now : Time) : Lamp :=
  let x := { x with wanted := w }
  if x.running = w then { x with pending := none }
  else if (lampTimes x.running).isNone then x.run w now
  else { x with pending := some w }

/-- R155: the wanted pattern is formed again from the requested one. -/
def formWanted (s : State) : State :=
  { s with lamp := s.lamp.want (wantedPattern s s.lamp.requested) s.now }

/-- R55: the origin record asks for a pattern. -/
def requestLamp (p : LampPattern) (s : State) : State :=
  formWanted { s with lamp := { s.lamp with requested := p } }

/-- R158: at a RESTART the request for DARK is taken at once, whatever pattern was running. -/
def restartLamp (s : State) : State :=
  { s with lamp := Lamp.start (wantedPattern s .dark) s.now }

/-- R156: the on-time of a periodic pattern ends. -/
def lampTurnsOff (s : State) : State :=
  match lampTimes s.lamp.running with
  | some (_, onTime) =>
    if s.lamp.on ∧ s.lamp.since + onTime ≤ s.now then { s with lamp := { s.lamp with on := false } } else s
  | none => s

/-- A period of the running pattern has passed. -/
def periodOver (s : State) : Bool :=
  match lampTimes s.lamp.running with
  | some (period, _) => decide (s.lamp.since + period ≤ s.now)
  | none => false

/-- R157: this period's end is the eighth of SEEK. -/
def tickDue (s : State) : Bool := s.lamp.running == .seek && decide (7 ≤ s.lamp.periodCount)

/-- R157: the completed period is counted. -/
def Lamp.countPeriod (x : Lamp) : Lamp :=
  if x.running = .seek then { x with periodCount := if 7 ≤ x.periodCount then 0 else x.periodCount + 1 } else x

/-- R156: at the end of a period a pending pattern starts, or the next period begins. -/
def Lamp.nextPeriod (x : Lamp) (now : Time) : Lamp :=
  match x.pending with
  | some p => x.run p now
  | none => { x with since := now, on := true }

/-- The lamp line (R156, R175). -/
def lampLine (s : State) : Bool :=
  !s.inReset &&
    match s.lamp.running with
    | .dark => false
    | .lit => true
    | .seek => s.lamp.on
    | .fail => s.lamp.on
    | .fault => s.lamp.on

/-! ## The supply (9.3) -/

/-- The thresholds of a set, in millivolts: NORMAL → RESERVE, RESERVE → LOW, LOW → RESERVE, RESERVE → NORMAL. -/
structure Thresholds where
  toReserve : Nat
  toLow : Nat
  fromLow : Nat
  toNormal : Nat

def thresholds (set1 : Bool) : Thresholds :=
  if set1 then { toReserve := 23600, toLow := 22000, fromLow := 22800, toNormal := 24400 }
  else { toReserve := 11800, toLow := 11000, fromLow := 11400, toNormal := 12200 }

/-- R159: the class of a sample, as seen from the present state. -/
def classify (set1 : Bool) (state : Supply) (mv : Nat) : Supply :=
  let t := thresholds set1
  match state with
  | .normal => if mv < t.toLow then .low else if mv < t.toReserve then .reserve else .normal
  | .reserve => if mv < t.toLow then .low else if mv < t.toNormal then .reserve else .normal
  | .low => if mv < t.fromLow then .low else if mv < t.toNormal then .reserve else .normal

/-- R159, R161: 100 ms have passed since the last sample, or since the end of the full reset (log 44). -/
def SupplyMonitor.sampleDue (x : SupplyMonitor) (now : Time) : Bool := decide (x.sampledAt + supplyPeriod ≤ now)

/-- R159: a class is filtered. -/
def SupplyMonitor.filter (x : SupplyMonitor) (cls : Supply) (now : Time) : SupplyMonitor :=
  if cls = x.state then { x with candidate := none, agree := 0, sampledAt := now }
  else if x.candidate = some cls then
    if x.agree + 1 < 3 then { x with agree := x.agree + 1, sampledAt := now }
    else { state := cls, candidate := none, agree := 0, sampledAt := now }
  else { x with candidate := some cls, agree := 1, sampledAt := now }

/-- R159: a sample of the supply voltage. -/
def sampleSupply (mv : Nat) (s : State) : State :=
  { s with supply := s.supply.filter (classify s.straps.supplySet s.supply.state mv) s.now }

end Sys2Proof.Machine
end

