-- ==== Sys2Proof/Machine/Carriages.lean ====
section
/-! DEFINITION. The Carriage Controller (05): the carriage records from grant to removal, with the origin record's answer to the
notices of a local carriage, and what a module's orders bring about at its carriage (06, 6.6). -/

namespace Sys2Proof.Machine

/-! ## The origin record's routes and stages (R46, R56) -/

/-- R56: the origin record sets the routes of its path. -/
def setOriginRoutes (s : State) : State :=
  match s.coc.path with
  | none => s
  | some p =>
    match p.kind, p.lane, p.module with
    | .peer, some l, _ => setRoute (.lane l) .mic .origin (setRoute .speaker (.laneRx l .b) .origin s)
    | .loc, _, some m => setRoute (.modTx m) .mic .origin (setRoute .speaker (.modRx m) .origin s)
    | _, _, _ => s

/-- R46: a stage is reported to the origin record. -/
def originStage (st : Stage) (code : Code) (s : State) : State :=
  let noted := s.updCoc fun c =>
    { c with stage := some st, network := some code, answered := c.answered || st == .answered }
  match s.coc.state with
  | .dialing =>
    match st with
    | .dialing => noted
    | .reselecting => noted
    | .ringing => stopPrompt .s (some .pleaseWait) noted
    | .answered => requestLamp .lit (stopPrompt .s none (noted.updCoc fun c => { c with state := .connected }))
  | .connected => noted
  | .probing => noted
  | .recovering => noted
  | .idle => s
  | .seeking => s
  | .claiming => s
  | .queued => s
  | .failed => s

/-- The origin record is on a LOCAL path. -/
def State.onLocalPath (s : State) : Bool :=
  match s.coc.path with
  | some p => p.kind == .loc
  | none => false

/-- R46: a stage notice from the local carriage. -/
def localStage (st : Stage) (code : Code) (s : State) : State :=
  if s.onLocalPath then originStage st code s else s

/-- R37: the local claim is granted with a module: the record enters DIALING and sets its routes. A queue position is cleared
(log 50). -/
def localGranted (m : Mod) (s : State) : State :=
  if s.onLocalPath then
    setOriginRoutes
      (requestLamp .seek
        (s.updCoc fun c =>
          { c with
            state := .dialing, path := c.path.map fun p => { p with module := some m }, stage := none,
            queuePos := none, searchDeadline := none }))
  else s

/-! ## Reports of a carriage (R85 to R89) -/

/-- A stage report: PROGRESS to a PEER origin, a notice for LOCAL. -/
def stageReport (c : Carriage) (st : Stage) (code : Code) (s : State) : State :=
  match c.kind with
  | .peer => handOver (progressFrame c.origin c.tag (oct (stageCode st)) code) s
  | .loc => localStage st code s

/-- The end of the call is reported: RELEASE to a PEER origin, an end notice for LOCAL. -/
def endReport (c : Carriage) (r : ReleaseReason) (s : State) : State :=
  match c.kind with
  | .peer => handOver (releaseFrame c.origin c.tag r) s
  | .loc => s.notify (.localEnd r)

/-- R85: the network of an attempt is named. -/
def networkNamed (m : Mod) (code : Code) (s : State) : State :=
  match s.car m with
  | none => s
  | some c =>
    let st : Stage := if c.tried.isEmpty then .dialing else .reselecting
    stageReport c st code
      (s.updCar m fun c => { c with tried := c.tried ++ [code], network := some code, lastStage := some st })

/-! ## Removal (R97) -/

/-- R97, step 3: a lane held is released, without quarantine. -/
def releaseCarriageLane (m : Mod) (s : State) : State :=
  match s.car m with
  | none => s
  | some c =>
    match c.lane with
    | some l => (releaseLane l (.carriage m) s).updCar m fun c => { c with lane := none }
    | none => s

/-- R97, steps 2 to 6. -/
def removeCarriage (m : Mod) (s : State) : State :=
  let s := stopEngine (engineOf (.carriage m)) s
  let s := releaseCarriageLane m s
  let s := stopPrompt (modPlayer m) (some .holdLine) (clearRoutes (.carriage m) s)
  let s := clearLink m (endModuleCall m s)
  s.setCar m none

/-- A carriage's call is reported ended, and the record is removed. -/
def endCarriage (m : Mod) (r : ReleaseReason) (s : State) : State :=
  match s.car m with
  | none => s
  | some c => removeCarriage m (endReport c r s)

/-! ## Dial attempts (R85, R87, R115) -/

/-- R115: a dial attempt turns into its first order. -/
def dialNow (m : Mod) (tried : List Code) (s : State) : State :=
  match dialChoice (s.mod m).table (s.mod m).selected tried with
  | .impossible => endCarriage m .allNetworksFailed s
  | .dial code => networkNamed m code (startDial m s)
  | .select code => networkNamed m code (startSelect m code s)

/-- R85, R101: the record asks for a dial attempt; it waits in the pending slot while an order is in flight. -/
def startAttempt (m : Mod) (s : State) : State :=
  match s.car m with
  | none => s
  | some c =>
    if (s.mod m).inFlight.isSome then s.updMod m fun r => { r with pendingOrder := some (.dial c.tried) }
    else dialNow m c.tried s

/-- R101: at the end of an order the pending order is sent. -/
def sendPending (m : Mod) (s : State) : State :=
  if (s.mod m).inFlight.isSome then s
  else
    match (s.mod m).pendingOrder with
    | none => s
    | some p =>
      let s := s.updMod m fun r => { r with pendingOrder := none }
      match p with
      | .scan => startScan m .scanning s
      | .select code => startSelect m code s
      | .dial tried => dialNow m tried s

/-- The state of the call beneath a wait for the origin: the resume state of a waiting record, else its own state. -/
def Carriage.phase (c : Carriage) : Option ResumeState :=
  if c.waiting then c.resume
  else
    match c.state with
    | .dialing => some .dialing
    | .ringing => some .ringing
    | .connected => some .connected
    | .granted => none
    | .awaitRejoin => none
    | .clearing => none

def ResumeState.state : ResumeState → CarriageState
  | .dialing => .dialing
  | .ringing => .ringing
  | .connected => .connected

/-- R86, R95: the record's state, or the resume state of a waiting record, changes. -/
def Carriage.setPhase (c : Carriage) (p : ResumeState) : Carriage :=
  if c.waiting then { c with resume := some p } else { c with state := p.state }

/-- R87: a dial attempt has failed before answer. A ring-limit hang-up has penalised its network already. -/
def attemptFailed (m : Mod) (penalty : Bool) (s : State) : State :=
  match s.car m with
  | none => s
  | some c =>
    let s := match penalty, c.network with
      | true, some code => penalise m code s
      | _, _ => s
    let s := s.updCar m fun c => { c with ringDeadline := none, ringHangup := false }
    if c.tried.length < 3 then startAttempt m (s.updCar m fun c => c.setPhase .dialing)
    else endCarriage m .allNetworksFailed s

/-! ## Voice (R90, R91) -/

/-- R90: the routes of a PEER record on the lane it holds. -/
def setCarriageRoutes (m : Mod) (s : State) : State :=
  match s.car m with
  | none => s
  | some c =>
    match c.lane with
    | some l => setRoute (.lane l) (.modRx m) (.carriage m) (setRoute (.modTx m) (.laneRx l .a) (.carriage m) s)
    | none => s

/-- R91: the record asks for the identity burst on its module's transmit stream. -/
def askBurst (m : Mod) (c : Carriage) (s : State) : State :=
  requestBurst { dest := m, sectionCode := s.straps.sectionCode, origin := c.origin, carrier := s.own } s

/-! ## Reports of the module (R86, R89, R93, R95) -/

/-- R86, R95: RINGING of the present attempt. -/
def carriageRings (m : Mod) (s : State) : State :=
  match s.car m with
  | none => s
  | some c =>
    if c.phase = some .dialing ∧ c.ringHangup = false then
      stageReport c .ringing (c.network.getD 0)
        (s.updCar m fun c =>
          { c.setPhase .ringing with ringDeadline := some (s.now + ringTime), lastStage := some .ringing })
    else s

/-- R86, R90, R91, R95: ANSWERED of the present attempt. -/
def carriageAnswers (m : Mod) (s : State) : State :=
  match s.car m with
  | none => s
  | some c =>
    if (c.phase = some .dialing ∨ c.phase = some .ringing) ∧ c.ringHangup = false then
      let s := s.updCar m fun c =>
        { c.setPhase .connected with answered := true, ringDeadline := none, lastStage := some .answered }
      let s := stageReport c .answered (c.network.getD 0) s
      let s := match c.kind with
        | .loc => setRoute (.modTx m) .mic (.carriage m) s
        | .peer => s
      askBurst m c s
    else s

/-- The reasons of ENDED after answer (R89). -/
inductive CallEnd where
  | farClear | netDrop
  deriving DecidableEq, Repr

/-- R89: the module's call ends after answer. -/
def carriageCallEnds (m : Mod) (e : CallEnd) (s : State) : State :=
  match s.car m with
  | none => s
  | some c =>
    match e with
    | .farClear => endCarriage m .farClear s
    | .netDrop =>
      endCarriage m .netDrop
        (match c.network with
          | some code => penalise m code s
          | none => s)

/-- R93: the record's module has failed. -/
def carriageModuleFault (m : Mod) (s : State) : State :=
  match s.car m with
  | none => s
  | some c => if c.state = .clearing then removeCarriage m s else endCarriage m .moduleFault s

/-- R88, R98, R117: the module's hang-up has ended under a carriage link. -/
def carriageHangupEnds (m : Mod) (s : State) : State :=
  match s.car m with
  | none => s
  | some c =>
    if c.state = .clearing then removeCarriage m s
    else if c.ringHangup then attemptFailed m false s
    else if c.phase = some .connected then carriageCallEnds m .netDrop s
    else attemptFailed m true s

/-- R105: a power-cycle, with the module fault that a linked carriage takes. -/
def powerCycle (m : Mod) (s : State) : State :=
  let linked := (s.mod m).link
  let s := switchOff m s
  if linked then carriageModuleFault m s else s

/-! ## Grant, join and failure of a lane (R79 to R82, R96) -/

/-- A lane is granted to a record: it is taken, the engine of the slot starts, GRANT goes to the origin, and the connect
deadline runs (R79, R81, R96). -/
def grantLane (m : Mod) (l : Lane) (s : State) : State :=
  match s.car m with
  | none => s
  | some c =>
    let s := takeLane l (.carriage m) s
    let s := s.updCar m fun c =>
      { c with state := .granted, lane := some l, ownPassed := false, originPassed := false,
               connectDeadline := some (s.now + connectTime) }
    let s := startEngine (.carriage m) l (seedOf c.origin c.tag.toNat) true true s
    handOver (grantFrame c.origin c.tag l m c.rejoinGrant) s

/-- R96: a rejoin completes. The stage of a record that never made a report is free (log 17). -/
def completeRejoin (m : Mod) (s : State) : State :=
  match s.car m with
  | none => s
  | some c =>
    let back := match c.resume with
      | some r => r.state
      | none => .dialing
    let s := s.updCar m fun c =>
      { c with rejoinDeadline := none, rejoinGrant := false, state := back, resume := none }
    let s := setCarriageRoutes m (stopPrompt (modPlayer m) (some .holdLine) s)
    let stage := match c.lastStage with
      | some st => oct (stageCode st)
      | none => Config.unreportedStage s.freeTick
    let code := match c.network with
      | some n => n
      | none => (Config.unreportedNetwork s.freeTick).toNat
    let s := { s with freeTick := s.freeTick + (if c.lastStage.isNone || c.network.isNone then 1 else 0) }
    let s := handOver (progressFrame c.origin c.tag stage code) s
    if c.answered then askBurst m c s else s

/-- R138: supervision of the lane a record holds begins. -/
def superviseCarriage (m : Mod) (s : State) : State :=
  match s.car m with
  | none => s
  | some c =>
    match c.lane with
    | some l => superviseLane l s
    | none => s

/-- R80: the join, once both checks have passed. -/
def tryJoin (m : Mod) (s : State) : State :=
  match s.car m with
  | none => s
  | some c =>
    if c.state = .granted ∧ c.ownPassed ∧ c.originPassed then
      let s := superviseCarriage m (s.updCar m fun c => { c with connectDeadline := none })
      if c.rejoinGrant then completeRejoin m s
      else startAttempt m (setCarriageRoutes m (s.updCar m fun c => { c with state := .dialing }))
    else s

/-- R81: the held lane does not prove: it is quarantined and released, and a regrant or REFUSE(NO-LANE) follows. -/
def laneFails (m : Mod) (s : State) : State :=
  match s.car m with
  | none => s
  | some c =>
    let s := stopEngine (engineOf (.carriage m)) s
    let s := match c.lane with
      | some l => releaseLane l (.carriage m) (quarantineLane l s)
      | none => s
    let s := s.updCar m fun c => { c with lane := none, connectDeadline := none }
    match (if c.regrants < 2 then chooseLane (c.mask.getD 0) s else none) with
    | some l => grantLane m l (s.updCar m fun c => { c with regrants := c.regrants + 1 })
    | none =>
      let s := handOver (refuseFrame c.origin c.tag .noLane) s
      if c.rejoinGrant then s.updCar m fun c => { c with state := .awaitRejoin, rejoinGrant := false }
      else removeCarriage m s

/-- R80, R81: the own check of a record in GRANTED has ended. -/
def carriageProbeEnds (m : Mod) (o : ProbeOutcome) (s : State) : State :=
  match s.car m with
  | none => s
  | some c =>
    if c.state = .granted then
      if o = .pass then tryJoin m (s.updCar m fun c => { c with ownPassed := true }) else laneFails m s
    else s

/-- R80, R81: a CONNECT for the record. -/
def carriageConnect (m : Mod) (lane outcome : Nat) (s : State) : State :=
  match s.car m, laneOfNumber lane with
  | some c, some l =>
    if c.lane = some l then
      if c.state = .granted then
        if outcome = 0 then tryJoin m (s.updCar m fun c => { c with originPassed := true }) else laneFails m s
      else s
    else if outcome = 0 then s
    else quarantineLane l s
  | _, _ => s

/-- R82: a retried CLAIM NEW for the record. -/
def carriageRetried (m : Mod) (mask : LaneMask) (s : State) : State :=
  match s.car m with
  | none => s
  | some c =>
    match c.state, c.lane with
    | .granted, some l =>
      let s := s.updCar m fun c =>
        { c with mask := some mask, ownPassed := false, connectDeadline := some (s.now + connectTime) }
      handOver (grantFrame c.origin c.tag l m c.rejoinGrant) (restartChecker m l s)
    | _, _ => s

/-- R83: the origin releases the carriage. -/
def carriageReleased (m : Mod) (s : State) : State :=
  match s.car m with
  | none => s
  | some c => if c.state = .clearing then s else removeCarriage m s

/-! ## Lane loss and rejoin (R93, R94, R96) -/

/-- R93: the record leaves a supervised state for AWAIT-REJOIN. -/
def enterAwaitRejoin (m : Mod) (s : State) : State :=
  match s.car m with
  | none => s
  | some c =>
    match c.phase with
    | none => s
    | some p =>
      let s := releaseCarriageLane m (clearRoutes (.carriage m) s)
      let s := s.updCar m fun c =>
        { c with state := .awaitRejoin, resume := some p, rejoinDeadline := some (s.now + rejoinTime) }
      requestHoldLine m s

/-- The record is in a state whose lane is supervised. -/
def Carriage.supervisedState (c : Carriage) : Bool :=
  c.state == .dialing || c.state == .ringing || c.state == .connected

/-- R93: a lane loss reaches the record. -/
def carriageLaneLoss (m : Mod) (s : State) : State :=
  match s.car m with
  | none => s
  | some c => if c.supervisedState then enterAwaitRejoin m s else s

/-- R96: a rejoin is granted a lane, or refused one, in AWAIT-REJOIN. -/
def grantRejoin (m : Mod) (mask : LaneMask) (s : State) : State :=
  match s.car m with
  | none => s
  | some c =>
    let s := s.updCar m fun c => { c with mask := some mask }
    match chooseLane mask s with
    | some l => grantLane m l (s.updCar m fun c => { c with rejoinGrant := true, regrants := 0 })
    | none => handOver (refuseFrame c.origin c.tag .noLane) s

/-- R96: a CLAIM REJOIN for the record, by its state. -/
def carriageRejoin (m : Mod) (mask : LaneMask) (s : State) : State :=
  match s.car m with
  | none => s
  | some c =>
    match c.state with
    | .awaitRejoin => grantRejoin m mask s
    | .granted =>
      if c.rejoinGrant then carriageRetried m mask s
      else removeCarriage m (handOver (refuseFrame c.origin c.tag .noRejoin) s)
    | .dialing => grantRejoin m mask (enterAwaitRejoin m s)
    | .ringing => grantRejoin m mask (enterAwaitRejoin m s)
    | .connected => grantRejoin m mask (enterAwaitRejoin m s)
    | .clearing => handOver (refuseFrame c.origin c.tag .noRejoin) s

/-- R94: a waiting record ends its module's call, with HANGUP unless one is in flight, and enters CLEARING, or is removed when no
call is in progress. The ring deadline and the resume state do not outlive the entry to CLEARING (log 41). -/
def clearWaiting (m : Mod) (s : State) : State :=
  if (s.mod m).callInProgress then
    let s := stopEngine (engineOf (.carriage m)) s
    let s := releaseCarriageLane m s
    let s := stopPrompt (modPlayer m) (some .holdLine) s
    let s := s.updCar m fun c =>
      { c with state := .clearing, rejoinGrant := false, connectDeadline := none, rejoinDeadline := none,
               ringDeadline := none, resume := none }
    if (s.mod m).flying .hangup then s else endModuleCall m s
  else removeCarriage m s

/-! ## Deadlines of a carriage (R81, R88, R94) -/

/-- R81: the connect deadline of a grant is reached. -/
def connectExpires (m : Mod) (s : State) : State :=
  match s.car m with
  | none => s
  | some c => if c.state = .granted ∧ s.due c.connectDeadline then laneFails m s else s

/-- R88: an attempt has rung unanswered to its limit. -/
def ringExpires (m : Mod) (s : State) : State :=
  match s.car m with
  | none => s
  | some c =>
    if s.due c.ringDeadline then
      let s := match c.network with
        | some code => penalise m code s
        | none => s
      orderHangup m (s.updCar m fun c => { c.setPhase .dialing with ringDeadline := none, ringHangup := true })
    else s

/-- R94: the rejoin window ends. -/
def rejoinExpires (m : Mod) (s : State) : State :=
  match s.car m with
  | none => s
  | some c =>
    if c.waiting ∧ s.due c.rejoinDeadline then
      if c.state = .granted then clearWaiting m (handOver (releaseFrame c.origin c.tag .laneLost) s)
      else clearWaiting m s
    else s

/-! ## What a module's orders and reports bring about (06, 6.3 to 6.6) -/

/-- R110, R115: a SELECT has failed. -/
def selectFails (m : Mod) (code : Code) (s : State) : State :=
  let s := s.updMod m fun r => { r with selected := none }
  if (s.mod m).link then attemptFailed m true s else penalise m code s

/-- R110, R115: a SELECT has succeeded: an attempt's DIAL is sent, an idle module settles. -/
def selectSucceeds (m : Mod) (code : Code) (s : State) : State :=
  let s := s.updMod m fun r => { r with selected := some code }
  if (s.mod m).link then startDial m s else settle m s

/-- R110, R115: a SELECTED ends the SELECT in flight. -/
def selectEnds (m : Mod) (code : Code) (ok : Bool) (s : State) : State :=
  match (s.mod m).inFlight with
  | some o =>
    if o.kind = .select then
      let s := landOrder m s
      if ok ∧ code = o.code then selectSucceeds m o.code s else selectFails m o.code s
    else s
  | none => s

/-- R107: a SCAN-LIST ends a SCAN. -/
def scanEnds (m : Mod) (entries : List ScanEntry) (s : State) : State :=
  settle m
    ((landOrder m s).updMod m fun r =>
      let t := scanTable entries r.table
      { r with table := t, selected := keptSelection t r.selected })

/-- R104, R114: an ABORT has ended: the pending order is sent; with none, an idle module settles and one in a carriage
enters READY. -/
def abortEnds (m : Mod) (s : State) : State :=
  let s := landOrder m s
  if (s.mod m).pendingOrder.isSome then sendPending m s
  else if (s.mod m).link then s.updMod m fun r => { r with state := .ready }
  else settle m s

/-- R116: an attempt has ended before answer by REJECTED or ENDED. -/
def attemptEnds (m : Mod) (s : State) : State :=
  let s := s.updMod m fun r => { r with inFlight := none, progressDeadline := none, callInProgress := false }
  if (s.mod m).link then attemptFailed m true s else settle m s

/-- R117: a hang-up has ended. -/
def hangupEnds (m : Mod) (s : State) : State :=
  let s := s.updMod m fun r => { r with inFlight := none, callInProgress := false }
  if (s.mod m).link then carriageHangupEnds m s else settle m s

/-- R116: an answered call has ended. -/
def callEnds (m : Mod) (e : CallEnd) (s : State) : State :=
  let s := s.updMod m fun r => { r with inFlight := none, callInProgress := false }
  if (s.mod m).link then carriageCallEnds m e s else settle m s

/-- R116: the reason of an ENDED in IN-CALL as it is passed on: anything but FAR-CLEAR ends as NET-DROP does (R89). -/
def callEndOf (reason : Octet) : CallEnd := if reason = 1 then .farClear else .netDrop

/-- R116, R117: an ENDED report, by the module's state. -/
def endedReport (m : Mod) (reason : Octet) (s : State) : State :=
  match (s.mod m).state with
  | .hangingUp => if (s.mod m).flying .hangup then hangupEnds m s else s
  | .dialing => attemptEnds m s
  | .ringing => attemptEnds m s
  | .inCall => callEnds m (callEndOf reason) s
  | .absent => s
  | .powering => s
  | .scanning => s
  | .noService => s
  | .selecting => s
  | .ready => s
  | .refreshing => s
  | .fault => s
  | .disabled => s

/-- R116: ACCEPTED ends the DIAL. -/
def acceptedReport (m : Mod) (s : State) : State :=
  if (s.mod m).flying .dial then
    s.updMod m fun r => { r with inFlight := none, progressDeadline := some (s.now + progressTime) }
  else s

/-- R116: REJECTED ends the DIAL and the attempt. -/
def rejectedReport (m : Mod) (s : State) : State :=
  if (s.mod m).flying .dial then attemptEnds m s else s

/-- R116: RINGING. -/
def ringingReport (m : Mod) (s : State) : State :=
  if (s.mod m).state = .dialing then
    carriageRings m (s.updMod m fun r => { r with state := .ringing, inFlight := none, progressDeadline := none })
  else s

/-- R116: ANSWERED. -/
def answeredReport (m : Mod) (s : State) : State :=
  if (s.mod m).state = .dialing ∨ (s.mod m).state = .ringing then
    carriageAnswers m (s.updMod m fun r => { r with state := .inCall, inFlight := none, progressDeadline := none })
  else s

/-- R112: QUALITY of the selected network. -/
def qualityReport (m : Mod) (q : Octet) (s : State) : State :=
  match (s.mod m).selected with
  | none => s
  | some c =>
    match netOf (s.mod m).table c with
    | none => s
    | some _ => settle m (s.updMod m fun r => { r with table := setQuality r.table c (min q.toNat 63) })

/-- R105, R106: READY. -/
def readyReport (m : Mod) (s : State) : State :=
  if (s.mod m).state = .powering then
    startScan m .scanning (s.updMod m fun r => { r with poweringDeadline := none, powerCycles := 0 })
  else powerCycle m s

/-- R103, R107, R114: SCAN-LIST. A late one ends the ABORT in flight, and its entries are discarded (log 16). -/
def scanListReport (m : Mod) (entries : List ScanEntry) (s : State) : State :=
  if (s.mod m).flying .scan then scanEnds m entries s
  else if (s.mod m).flying .abort then abortEnds m s
  else s

/-- R114: ABORTED. -/
def abortedReport (m : Mod) (s : State) : State :=
  if (s.mod m).flying .abort then abortEnds m s else s

/-- A report is taken from a powered link: it clears the timeouts, then acts (R99, R103). -/
def onReport (m : Mod) (act : State → State) (s : State) : State :=
  if (s.mod m).power then act (reportTaken m s) else s

/-- What a report brings about (R99). -/
def takeReport (m : Mod) (r : Report) (s : State) : State :=
  match r with
  | .ready => readyReport m s
  | .scanList entries => scanListReport m entries s
  | .selected code result => selectEnds m code.toNat (result == 0) s
  | .accepted => acceptedReport m s
  | .rejected => rejectedReport m s
  | .ringing => ringingReport m s
  | .answered => answeredReport m s
  | .ended reason => endedReport m reason s
  | .aborted => abortedReport m s
  | .quality q => qualityReport m q s
  | .fault => powerCycle m s

/-- R99: a message of a powered link is discarded and counted. A link without power is not read. -/
def linkError (m : Mod) (s : State) : State :=
  if (s.mod m).power then s.updMod m fun r => { r with linkErrors := satInc r.linkErrors } else s

/-- R99: what the receiver makes of one message. -/
def takeLink (m : Mod) (s : State) : LinkEvent → State
  | .report r => onReport m (takeReport m r) s
  | .discarded => linkError m s

/-- R99: the octets of a link that the station reads: those heard since the position's power last came on. One heard without
power, or before it went off, is neither read nor counted. -/
def Module.reads (r : Module) (octets : List LinkOctet) : List LinkOctet :=
  octets.filter fun o => decide (r.poweredAt ≤ o.heardAt)

/-- R99: octets of a module link reach the hunting receiver (log 24). -/
def linkStream (m : Mod) (octets : List LinkOctet) (s : State) : State :=
  (linkEvents .hunting 0 s.now ((s.mod m).reads octets)).foldl (takeLink m) s

/-! ## Timeouts of orders (R104) -/

/-- R104: the order in flight ends by timeout: the third power-cycles the module, otherwise `act` follows. -/
def orderTimesOut (m : Mod) (k : OrderKind) (act : State → State) (s : State) : State :=
  if orderDue m k s then
    let s := s.updMod m fun r => { r with timeouts := r.timeouts + 1 }
    if 3 ≤ (s.mod m).timeouts then powerCycle m s else act s
  else s

/-- R104: a SCAN times out. -/
def scanTimesOut (m : Mod) (s : State) : State :=
  sendPending m
    ((landOrder m s).updMod m fun r =>
      { r with table := [], selected := none, state := .noService, rescanDue := some (s.now + rescanTime) })

/-- R104: a SELECT times out, a failed selection. -/
def selectTimesOut (m : Mod) (s : State) : State :=
  match (s.mod m).inFlight with
  | some o => selectFails m o.code (landOrder m s)
  | none => s

/-- R108: the no-service rescan is due. -/
def rescanStarts (m : Mod) (s : State) : State :=
  if (s.mod m).state = .noService ∧ s.due (s.mod m).rescanDue then startScan m .scanning s else s

/-- R116: the progress deadline is reached in DIALING. -/
def progressExpires (m : Mod) (s : State) : State :=
  if (s.mod m).state = .dialing ∧ s.due (s.mod m).progressDeadline then orderHangup m s else s

/-- R106: the powering deadline is reached. -/
def poweringExpires (m : Mod) (s : State) : State :=
  if (s.mod m).state = .powering ∧ s.due (s.mod m).poweringDeadline then powerCycle m s else s

end Sys2Proof.Machine
end

