-- ==== Sys2Proof/Machine/LaneTests.lean ====
section
/-! DEFINITION. The lane test's figures and its end (12, 12.3). -/

namespace Sys2Proof.Machine

/-- R181: the words the generator sends. -/
def testWords (lengthExp : Nat) : Nat := 1024 * 2 ^ lengthExp

/-- R182: the words the checker compares. -/
def testGoal (lengthExp : Nat) : Nat := testWords lengthExp - 256

/-- The number of multiples of `p` below `n`, 0 among them. -/
def multiplesBelow (p n : Nat) : Nat := (n + p - 1) / p

/-- R181: the insertion points among the words below `n`: multiples of 2^(k+3) from 256 on, none when k is 0, at most 2^b
of them when b is 1..10. -/
def insertionsBelow (intervalExp burstExp n : Nat) : Nat :=
  if intervalExp = 0 then 0
  else
    let p := 2 ^ (intervalExp + 3)
    let points := multiplesBelow p n - multiplesBelow p 256
    if burstExp = 0 then points else min points (2 ^ burstExp)

/-- R182: the expected count. -/
def LaneTest.expected (t : LaneTest) : Nat := insertionsBelow t.intervalExp t.burstExp (testWords t.lengthExp)

/-- R181: word `n` is an insertion point whose error is still inserted. -/
def insertedAt (t : LaneTest) (n : Nat) : Bool :=
  t.intervalExp != 0 && n % 2 ^ (t.intervalExp + 3) == 0 && decide (256 ≤ n ∧ n < testWords t.lengthExp) &&
    (t.burstExp == 0 || decide (insertionsBelow t.intervalExp 0 n < 2 ^ t.burstExp))

/-- R181: the bit that the nth inserted error inverts. -/
def insertedBit (t : LaneTest) (n : Nat) : Nat := (t.startBit + n * t.walk) % 32

/-- R181: word `n` as the generating station sends it, from its seed. -/
def testWord (t : LaneTest) (seed : BitVec 15) (n : Nat) : BitVec 32 :=
  if insertedAt t n then
    seedWord seed n ^^^ (1#32 <<< insertedBit t (insertionsBelow t.intervalExp t.burstExp n))
  else seedWord seed n

/-- R183: the words a generator has sent by now. A word partly on the line does not count, nor its inverted bit (log 47). -/
def wordsSent (t : LaneTest) (now : Time) : Nat := min (testWords t.lengthExp) ((now - t.start) / wordTime)

/-- R182: the outcome of a completed test check. -/
def testOutcome (t : LaneTest) (x : Engine) : TestResult :=
  let e := x.errors.toNat
  if e + 8 < t.expected ∨ t.expected + 8 < e then .errors else if 16 < t.largest then .drift else .pass

/-- R183: the result record as it is written when the test ends. -/
def testRecord (t : LaneTest) (result : TestResult) (x : Engine) (now : Time) : ResultRecord :=
  match t.role with
  | .generate =>
    let words := if result = .generated then testWords t.lengthExp else wordsSent t now
    { result := result, lane := oct (laneNumber t.lane), words := words,
      errorsCounted := insertionsBelow t.intervalExp t.burstExp words, errorsExpected := 0, lastCompare := 0,
      largestCompare := 0, dropouts := 0 }
  | .check =>
    { result := result, lane := oct (laneNumber t.lane), words := x.compared, errorsCounted := x.errors.toNat,
      errorsExpected := t.expected, lastCompare := x.compare, largestCompare := t.largest, dropouts := t.dropouts }

def resultCode : TestResult → Nat
  | .none => 0
  | .pass => 1
  | .errors => 2
  | .drift => 3
  | .stuck => 4
  | .nosync => 5
  | .timeout => 6
  | .aborted => 7
  | .generated => 8
  | .refused => 9

/-- The thirteen octets of TEST-REPORT and of STATUS-REPORT LAST-TEST (12, 12.1). -/
def recordOctets (r : ResultRecord) : List Octet :=
  [oct (resultCode r.result), r.lane] ++ be24 r.words ++ be16 r.errorsCounted ++ be16 r.errorsExpected
    ++ [BitVec.ofInt 8 r.lastCompare, oct r.largestCompare] ++ be16 r.dropouts.toNat

def testReportFrame (target : Octet) (r : ResultRecord) : Frame :=
  { kind := .testReport, target := target, payload := recordOctets r }

/-- R183: a test ends: lane released or hold ended, record written, test cleared. The report is handed over by `endTest`. -/
def closeTest (t : LaneTest) (result : TestResult) (s : State) : State :=
  let r := testRecord t result s.engines.e0 s.now
  let s := stopEngine .e0 (releaseLane t.lane .laneTest s)
  { s with svc := { s.svc with record := r, test := none } }

/-- R183: a test in progress ends with the result, and TEST-REPORT goes to its orderer. -/
def endTest (result : TestResult) (s : State) : State :=
  match s.svc.test with
  | none => s
  | some t =>
    let s := closeTest t result s
    handOver (testReportFrame t.orderer s.svc.record) s

end Sys2Proof.Machine
end

