-- ==== Sys2Proof/Machine/Arbiter.lean ====
section
/-! DEFINITION. The Channel Arbiter (04): the claim queue, grants, refusals and the service of the queue. -/

namespace Sys2Proof.Machine

/-! ## The queue (4.1) -/

/-- The position of the local entry, counted from 1 at the head. -/
def localPositionFrom : Nat → List ClaimEntry → Option Nat
  | _, [] => none
  | n, e :: rest => if e.loc then some n else localPositionFrom (n + 1) rest

def localPosition (q : List ClaimEntry) : Option Nat := localPositionFrom 1 q

/-- The position of an entry, counted from 1 at the head. -/
def positionFrom (origin : Station) (tag : Tag) : Nat → List ClaimEntry → Option Nat
  | _, [] => none
  | n, e :: rest => if e.names origin tag then some n else positionFrom origin tag (n + 1) rest

def positionOf (q : List ClaimEntry) (origin : Station) (tag : Tag) : Nat := (positionFrom origin tag 1 q).getD 0

/-- R68: the origin record learns a changed position of its local entry. -/
def tellPosition (s : State) : State :=
  if s.coc.state = .queued ∧ s.onLocalPath = true then
    match localPosition s.claims with
    | some n => s.updCoc fun c => { c with queuePos := some n }
    | none => s
  else s

/-- R58: entries leave the queue from any place; the others keep their order. -/
def keepClaims (keep : ClaimEntry → Bool) (s : State) : State :=
  tellPosition { s with claims := s.claims.filter keep }

/-- The entry of this origin and tag leaves the queue. -/
def removeClaim (origin : Station) (tag : Tag) (s : State) : State :=
  keepClaims (fun e => !e.names origin tag) s

/-- R58: a new entry joins at the tail. -/
def joinClaims (e : ClaimEntry) (s : State) : State := { s with claims := s.claims ++ [e] }

/-- The claim-queue entry of this origin and tag. -/
def State.claimOf (s : State) (origin : Station) (tag : Tag) : Option ClaimEntry :=
  s.claims.find? fun e => e.names origin tag

/-- The entry of this origin and tag is changed in place. -/
def updClaim (origin : Station) (tag : Tag) (f : ClaimEntry → ClaimEntry) (s : State) : State :=
  { s with claims := s.claims.map fun e => if e.names origin tag then f e else e }

/-! ## Grants (R59, R65) -/

/-- R59: module `x` is chosen before module `y`, `x` being A: READY before REFRESHING, then the higher best quality, then A. -/
def preferA (x y : Module) : Bool :=
  if x.state = .ready ∧ y.state ≠ .ready then true
  else if x.state ≠ .ready ∧ y.state = .ready then false
  else decide (y.bestQuality ≤ x.bestQuality)

/-- R59: the module the arbiter chooses. -/
def chooseModule (s : State) : Option Mod :=
  match s.modules.a.grantable, s.modules.b.grantable with
  | true, true => if preferA s.modules.a s.modules.b then some .a else some .b
  | true, false => some .a
  | false, true => some .b
  | false, false => none

/-- R59: some fitted module is serviceable. -/
def State.anyServiceable (s : State) : Bool := s.modules.a.serviceable || s.modules.b.serviceable

/-- A carriage record as the arbiter creates it (R65, R79). -/
def newCarriage (origin : Station) (tag : Tag) (kind : PathKind) (mask : Option LaneMask) : Carriage :=
  { origin := origin, tag := tag, kind := kind, lane := none, mask := mask,
    state := match kind with | .peer => .granted | .loc => .dialing
    rejoinGrant := false, ownPassed := false, originPassed := false, connectDeadline := none, regrants := 0,
    tried := [], network := none, lastStage := none, ringHangup := false, answered := false, ringDeadline := none,
    rejoinDeadline := none, resume := none, dropouts := 0 }

/-- R65, step 6. -/
def countGrant (s : State) : State := s.count fun c => { c with callsGranted := satInc c.callsGranted }

/-- R65: a module and a lane are committed to a remote claim. -/
def grantRemote (m : Mod) (l : Lane) (origin : Station) (tag : Tag) (mask : LaneMask) (s : State) : State :=
  countGrant (grantLane m l ((commitModule m s).setCar m (some (newCarriage origin tag .peer (some mask)))))

/-- R65, R79: a module is committed to a local claim. The claim is answered before the record's first dial attempt, so that
its first stage notice meets the record in DIALING (log 9). -/
def grantLocal (m : Mod) (tag : Tag) (s : State) : State :=
  startAttempt m
    (localGranted m (countGrant ((commitModule m s).setCar m (some (newCarriage s.own tag .loc none)))))

/-! ## Service (R73, R74) -/

/-- R73: the head is served again and again until a stopping case; the fuel is the length of the queue. -/
def serveQueue : Nat → State → State
  | 0, s => s
  | n + 1, s =>
    match s.claims with
    | [] => s
    | e :: rest =>
      match chooseModule s with
      | none => s
      | some m =>
        if e.loc then serveQueue n (grantLocal m e.tag (tellPosition { s with claims := rest }))
        else
          let mask := e.mask.getD 0
          match chooseLane mask s with
          | some l => serveQueue n (grantRemote m l e.origin e.tag mask (tellPosition { s with claims := rest }))
          | none => s

def serve (s : State) : State := serveQueue s.claims.length s

/-- R73: a lane has become free for choosing; the queue is served when its head is remote and a module is grantable. -/
def serveOnLane (s : State) : State :=
  match s.claims with
  | e :: _ => if !e.loc && (chooseModule s).isSome then serve s else s
  | [] => s

/-! ## Stale claims (R63) -/

/-- A carriage of this origin under another tag. -/
def staleCarriage (origin : Station) (tag : Tag) (c : Option Carriage) : Bool :=
  match c with
  | some x => x.origin == origin && x.tag != tag
  | none => false

/-- R63: the carriage of a slot is ended as by RELEASE(ABANDON), when it is stale. -/
def endStale (origin : Station) (tag : Tag) (m : Mod) (s : State) : State :=
  if staleCarriage origin tag (s.car m) then carriageReleased m s else s

/-- R113: a module fails the conditions of R59 in `s0` and meets them in `s1`. -/
def turnsGrantable (m : Mod) (s0 s1 : State) : Bool := !(s0.mod m).grantable && (s1.mod m).grantable

/-- R113: the notice of a module that became grantable between two states. -/
def noteModule (m : Mod) (s0 s1 : State) : State := if turnsGrantable m s0 s1 then s1.notify (.grantable m) else s1

/-- R113: the notices of the modules that became grantable between two states. -/
def noteFreed (s0 s1 : State) : State := noteModule .b s0 (noteModule .a s0 s1)

/-- R63: stale claims of an origin are cleared; the queue is served when its head was among them or a module came free (R73). -/
def clearStale (origin : Station) (tag : Tag) (s : State) : State :=
  let staleEntry := fun (e : ClaimEntry) => e.origin == origin && e.tag != tag
  if s.claims.any staleEntry || staleCarriage origin tag s.carriages.a || staleCarriage origin tag s.carriages.b then
    let s1 := endStale origin tag .b (endStale origin tag .a (keepClaims (fun e => !staleEntry e) s))
    if s.claims.head?.any staleEntry || turnsGrantable .a s s1 || turnsGrantable .b s s1 then serve (noteFreed s s1)
    else noteFreed s s1
  else s

/-! ## Claims from peers (R61 to R66, R69) -/

/-- A new entry of the queue (R64, R67). -/
def newEntry (origin : Station) (tag : Tag) (mask : Option LaneMask) (s : State) : ClaimEntry :=
  { origin := origin, tag := tag, loc := mask.isNone, mask := mask, arrivedAt := s.now,
    expiresAt := s.now + claimLife, lastWait := if mask.isSome then some s.now else none }

/-- R64: a CLAIM NEW that has passed the tests is granted, queued or refused. -/
def placeClaim (origin : Station) (tag : Tag) (mask : LaneMask) (s : State) : State :=
  match s.claims.isEmpty, chooseModule s with
  | true, some m =>
    match chooseLane mask s with
    | some l => grantRemote m l origin tag mask s
    | none => handOver (refuseFrame origin tag .noLane) s
  | _, _ =>
    if s.claims.length < 6 then
      handOver (waitFrame origin tag (s.claims.length + 1)) (joinClaims (newEntry origin tag (some mask) s) s)
    else handOver (refuseFrame origin tag .queueFull) s

/-- R61, tests 5 to 7. -/
def admitClaim (origin : Station) (tag : Tag) (mask : LaneMask) (s : State) : State :=
  if s.straps.offer = false ∨ s.anyServiceable = false then handOver (refuseFrame origin tag .noChannel) s
  else if s.supply.state = .low then handOver (refuseFrame origin tag .lowSupply) s
  else placeClaim origin tag mask s

/-- R62: a retry of a queued claim. -/
def retryQueued (origin : Station) (tag : Tag) (mask : LaneMask) (s : State) : State :=
  handOver (waitFrame origin tag (positionOf s.claims origin tag))
    (updClaim origin tag (fun e => { e with mask := some mask, lastWait := some s.now }) s)

/-- R61: a CLAIM NEW. -/
def claimNew (origin : Station) (tag : Tag) (mask : LaneMask) (s : State) : State :=
  match s.carriageOf origin tag with
  | some m => carriageRetried m mask s
  | none =>
    if s.queued origin tag then retryQueued origin tag mask s
    else if s.band.dupFault then s
    else admitClaim origin tag mask (clearStale origin tag s)

/-- The head of the queue is the entry of this origin and tag. -/
def isHead (origin : Station) (tag : Tag) (s : State) : Bool :=
  match s.claims with
  | e :: _ => e.names origin tag
  | [] => false

/-- An entry is removed, `answer` is handed over, and the new head is served when the entry was the head (R71 to R73). -/
def removeAndServe (origin : Station) (tag : Tag) (answer : State → State) (s : State) : State :=
  let head := isHead origin tag s
  let s := answer (removeClaim origin tag s)
  if head then serve s else s

/-- R69: a CLAIM REJOIN. -/
def claimRejoin (origin : Station) (tag : Tag) (mask : LaneMask) (s : State) : State :=
  let refuse := handOver (refuseFrame origin tag .noRejoin)
  match s.carriageOf origin tag with
  | some m => carriageRejoin m mask s
  | none =>
    if s.queued origin tag then removeAndServe origin tag refuse s
    else if s.band.dupFault then s
    else refuse (clearStale origin tag s)

/-- The lane mask of a CLAIM's octet; bits 7 and 6 are not read (04, 4.8). -/
def maskOf (o : Octet) : LaneMask := BitVec.ofNat 6 o.toNat

/-- R60: a frame delivered to the arbiter is not addressed to one station, or names no sender. -/
def unaddressed (f : Rx) : Bool := f.target == 0 || f.sender == 0

/-- R60: a CLAIM delivered to the arbiter. One that it discards is counted (R173). A test in progress ends before the claim is
taken (R183). -/
def arbiterClaim (f : Rx) (s : State) : State :=
  if unaddressed f = true ∨ f.payload.length ≠ 3 ∨ 1 < octAt f.payload 1 then s.dropFrame
  else
    let s := endTest .aborted s
    let tag := octetAt f.payload 0
    let mask := maskOf (octetAt f.payload 2)
    if octAt f.payload 1 = 0 then claimNew f.sender.toNat tag mask s else claimRejoin f.sender.toNat tag mask s

/-- R60: a CONNECT delivered to the arbiter. One that it discards is counted, also one that names no carriage record (R173). -/
def arbiterConnect (f : Rx) (s : State) : State :=
  if unaddressed f = true ∨ f.payload.length ≠ 3 then s.dropFrame
  else
    match s.carriageOf f.sender.toNat (octetAt f.payload 0) with
    | some m => carriageConnect m (octAt f.payload 1) (octAt f.payload 2) s
    | none => s.dropFrame

/-- R60, R72: a RELEASE delivered to the arbiter; its length has been tested (R171). One that it discards is counted, also one
that names neither a carriage record nor a queue entry (R173). -/
def arbiterRelease (f : Rx) (s : State) : State :=
  if unaddressed f then s.dropFrame
  else
    match s.carriageOf f.sender.toNat (octetAt f.payload 0) with
    | some m => carriageReleased m s
    | none =>
      if s.queued f.sender.toNat (octetAt f.payload 0) then removeAndServe f.sender.toNat (octetAt f.payload 0) id s
      else s.dropFrame

/-! ## Local claims (R67, R68) -/

/-- The arbiter's answer to a local claim as it is placed. -/
inductive LocalAnswer where
  | granted
  | queued
  | refused (r : RefuseReason)
  deriving DecidableEq, Repr

/-- R67: what the arbiter answers, once stale claims are cleared. -/
def localAnswer (s : State) : LocalAnswer :=
  if s.anyServiceable = false then .refused .noChannel
  else if s.claims.isEmpty && (chooseModule s).isSome then .granted
  else if s.claims.length < 6 then .queued
  else .refused .queueFull

/-- R67, cases 3 and 4: the local claim is granted a module or joins the queue at the tail. -/
def placeLocal (tag : Tag) (s : State) : State :=
  match localAnswer s, chooseModule s with
  | .granted, some m => grantLocal m tag s
  | .queued, _ => joinClaims (newEntry s.own tag none s) s
  | _, _ => s

/-! ## Time at the queue (R70, R71) -/

/-- R70: a remote entry's WAIT is refreshed. -/
def refreshWait (origin : Station) (tag : Tag) (s : State) : State :=
  match s.claimOf origin tag with
  | none => s
  | some e =>
    if e.loc = false ∧ s.due (e.lastWait.map (· + waitInterval)) then
      handOver (waitFrame origin tag (positionOf s.claims origin tag))
        (updClaim origin tag (fun e => { e with lastWait := some s.now }) s)
    else s

/-- R71: an entry expires. -/
def claimExpires (origin : Station) (tag : Tag) (s : State) : State :=
  match s.claimOf origin tag with
  | none => s
  | some e =>
    if e.expiresAt ≤ s.now then
      removeAndServe origin tag
        (fun s => if e.loc then s.notify .localRefused else handOver (refuseFrame origin tag .expired) s) s
    else s

/-- R68: the origin record withdraws its local claim. -/
def withdrawLocal (tag : Tag) (s : State) : State :=
  match s.claimOf s.own tag with
  | some e => if e.loc then removeAndServe s.own tag id s else s
  | none => s

end Sys2Proof.Machine
end

