-- ==== Sys2Proof/Machine/Ranking.lean ====
section
/-! DEFINITION. The Path Ranking Unit (02): candidates, score inputs, score and order. It holds no state between rankings. -/

namespace Sys2Proof.Machine

/-- A record of the candidate list (2.1). Its position is its place in the list, counted from 1. -/
structure Candidate where
  kind : PathKind
  station : Station
  q : Nat
  f : Nat
  d : Nat
  h : Nat
  a : Nat
  r : Nat
  v : Nat
  l : Nat
  deriving DecidableEq, Repr

/-! ## Score (2.4) -/

/-- R27. The age term is 20 × max(0, a − 2): the subtraction of numbers stops at 0. -/
def Candidate.raw (c : Candidate) : Int :=
  12 * (c.q : Int) + 60 * (c.f : Int) + 200 * (c.l : Int) - 40 * (c.d : Int) - 8 * (c.h : Int)
    - 20 * ((c.a - 2 : Nat) : Int) - 150 * (c.r : Int) - 300 * (c.v : Int)

/-- R28: the raw score clamped into 0..1,000. -/
def Candidate.score (c : Candidate) : Nat := min c.raw.toNat 1000

/-! ## Candidates and inputs (2.2, 2.3) -/

/-- R26: the avoid mark of a station. -/
def avoidMark (s : State) (st : Station) : Nat :=
  if s.coc.avoid.any fun e => e.station == st then 1 else 0

/-- A summary that is FREE with a usable count of 1 or more. -/
def Summary.isFree (x : Summary) : Bool := x.state == .free && decide (1 ≤ x.usable)

/-- A summary that is BUSY with a usable count of 1 or more. -/
def Summary.isBusy (x : Summary) : Bool := x.state == .busy && decide (1 ≤ x.usable)

/-- The summaries an entry holds. -/
def OfferEntry.summaries (e : OfferEntry) : List Summary := e.a.toList ++ e.b.toList

/-- R22, PEER. -/
def OfferEntry.freeCount (e : OfferEntry) : Nat := (e.summaries.filter Summary.isFree).length

/-- R19: the entry is a PEER candidate. -/
def OfferEntry.candidate (e : OfferEntry) : Bool :=
  e.summaries.any (fun x => x.isFree || x.isBusy) && !(e.freeCount == 0 && e.depth == 6)

/-- The highest of a list of qualities, 0 for none. -/
def highest (l : List Nat) : Nat := l.foldl max 0

/-- R21, PEER. -/
def OfferEntry.bestOf (e : OfferEntry) : Nat :=
  if e.freeCount = 0 then highest ((e.summaries.filter Summary.isBusy).map Summary.quality)
  else highest ((e.summaries.filter Summary.isFree).map Summary.quality)

/-- R24: the distance of two station numbers. -/
def distance (x y : Station) : Nat := (x - y) + (y - x)

/-- The PEER candidate of an entry. -/
def peerCandidate (s : State) (e : OfferEntry) : Candidate :=
  { kind := .peer, station := e.station, q := e.bestOf, f := e.freeCount, d := e.depth,
    h := distance e.station s.own, a := (s.now - e.receivedAt) / ms 1000,
    r := match e.supply with
      | .reserve => 1
      | .normal => 0
      | .low => 0
    v := avoidMark s e.station, l := 0 }

/-- The modules of the station, in order. -/
def State.moduleList (s : State) : List Module := [s.modules.a, s.modules.b]

/-- R18: the LOCAL path is a candidate. -/
def localIsCandidate (s : State) : Bool := s.moduleList.any Module.usableAsPath

/-- The LOCAL candidate (R21 to R26). A free module of R22 meets the conditions of R59. -/
def localCandidate (s : State) : Candidate :=
  let free := s.moduleList.filter Module.grantable
  { kind := .loc, station := s.own,
    q := if free.isEmpty then highest ((s.moduleList.filter Module.usableAsPath).map Module.bestQuality)
         else highest (free.map Module.bestQuality)
    f := free.length, d := s.claims.length, h := 0, a := 0, r := 0, v := avoidMark s s.own, l := 1 }

/-- The Offer Table entries a ranking takes: those whose age is below 10,000 ms (R15; log 25); none at station 0 (R20). -/
def rankedEntries (s : State) : List OfferEntry :=
  if s.own = 0 then []
  else s.offerTable.filter fun e => decide (s.now < e.receivedAt + entryLife) && e.candidate

/-- R17, steps 1 and 2: the candidates before they are ordered. -/
def candidates (s : State) : List Candidate :=
  (if localIsCandidate s then [localCandidate s] else []) ++ (rankedEntries s).map (peerCandidate s)

/-! ## Order (2.5) -/

/-- R29: `x` stands before `y` or shares all its keys. -/
def Candidate.before (x y : Candidate) : Bool :=
  if x.score = y.score then
    if x.h = y.h then decide (x.station ≤ y.station) else decide (x.h < y.h)
  else decide (y.score < x.score)

def insertCandidate (x : Candidate) : List Candidate → List Candidate
  | [] => [x]
  | y :: ys => if x.before y then x :: y :: ys else y :: insertCandidate x ys

/-- R17, step 3: the candidate list. -/
def candidateList (s : State) : List Candidate := (candidates s).foldr insertCandidate []

/-- R17, step 4: the outcome of a ranking. -/
def ranking (s : State) : Option Candidate := (candidateList s).head?

end Sys2Proof.Machine
end

