-- ==== Sys2Proof/Machine/Origin.lean ====
section
/-! DEFINITION. The Call Origin Controller (03): the origin record from the press to its return to idle. -/

namespace Sys2Proof.Machine

/-! ## Tag and avoid list (3.1) -/

/-- R31: a new tag is drawn; 255 is followed by 0. -/
def drawTag (s : State) : State := s.updCoc fun c => { c with tagCounter := c.tagCounter + 1, tag := c.tagCounter + 1 }

/-- R32: the avoid list after a station is placed in it. -/
def avoidWith (l : List AvoidEntry) (st : Station) (now : Time) : List AvoidEntry :=
  let others := l.filter fun e => e.station != st
  (if 4 ≤ others.length then others.tail else others) ++ [{ station := st, enteredAt := now }]

/-- R32: a station is placed in the avoid list. -/
def addAvoid (st : Station) (s : State) : State := s.updCoc fun c => { c with avoid := avoidWith c.avoid st s.now }

/-- R32: the entry of a station leaves the list, 30,000 ms after it entered. -/
def leaveAvoid (st : Station) (s : State) : State :=
  s.updCoc fun c => { c with avoid := c.avoid.filter fun e => !(e.station == st && decide (e.enteredAt + avoidLife ≤ s.now)) }

/-! ## States, path and lane -/

/-- The lamp pattern of a state (03, the table at its head). -/
def originPattern : OriginState → LampPattern
  | .idle => .dark
  | .seeking => .seek
  | .claiming => .seek
  | .queued => .seek
  | .probing => .seek
  | .dialing => .seek
  | .connected => .lit
  | .recovering => .seek
  | .failed => .fail

/-- R55: the record enters a state and asks for its lamp pattern. -/
def enterOrigin (st : OriginState) (s : State) : State :=
  requestLamp (originPattern st) (s.updCoc fun c => { c with state := st })

/-- R55: the record asks for a prompt on SPEAKER, once. -/
def askPrompt (p : Prompt) (s : State) : State := requestPrompt .s .origin p 1 0 s

/-- The station of the record's PEER path. -/
def Origin.peer (c : Origin) : Option Station :=
  match c.path with
  | some p =>
    match p.kind with
    | .peer => some p.station
    | .loc => none
  | none => none

/-- The lane the record holds. -/
def Origin.lane (c : Origin) : Option Lane :=
  match c.path with
  | some p => p.lane
  | none => none

/-- The record without its claim's deadlines and queue position (log 50). -/
def Origin.settled (c : Origin) : Origin :=
  { c with answerDeadline := none, queuePos := none, silenceDeadline := none, regrantWait := none }

/-- The record without its path, and with it the stage and network reported for that path (log 12). -/
def Origin.pathless (c : Origin) : Origin := { c.settled with path := none, stage := none, network := none }

/-- R56: the record clears the routes it set and releases its lane, with or without a quarantine of it. -/
def dropLane (quarantine : Bool) (s : State) : State :=
  let s := clearRoutes .origin s
  match s.coc.lane with
  | none => s
  | some l =>
    let s := releaseLane l .origin (if quarantine then quarantineLane l s else s)
    s.updCoc fun c => { c with path := c.path.map fun p => { p with lane := none } }

/-- RELEASE with the record's tag goes to the uplink of a PEER path. -/
def releaseUplink (r : ReleaseReason) (s : State) : State :=
  match s.coc.peer with
  | some st => handOver (releaseFrame st s.coc.tag r) s
  | none => s

/-- The station of the record's path enters the avoid list; a LOCAL path bears the own number (R32). -/
def avoidPath (s : State) : State :=
  match s.coc.path with
  | some p => addAvoid p.station s
  | none => s

/-- R47, R54: the record enters IDLE; what belonged to the call's path and deadlines is cleared (log 12). -/
def enterIdle (s : State) : State :=
  enterOrigin .idle
    (s.updCoc fun c => { c.pathless with searchDeadline := none, retryTime := none, failedUntil := none })

/-! ## Claiming (3.3) -/

/-- R36: the no-candidate wait begins. -/
def beginWait (s : State) : State := s.updCoc fun c => { c with retryTime := some (s.now + retryWait) }

/-- R35, R38, R49: a CLAIM with the record's tag and the lane mask read now goes to the uplink, and the answer deadline runs. -/
def sendClaim (kind : ClaimKind) (st : Station) (s : State) : State :=
  handOver (claimFrame st s.coc.tag kind s.laneMask)
    (s.updCoc fun c => { c with answerDeadline := some (s.now + claimAnswerTime) })

/-- R35, PEER: the record claims at the candidate's station. -/
def claimPeer (st : Station) (s : State) : State :=
  enterOrigin .claiming
    (sendClaim .new st
      (s.updCoc fun c =>
        { c with path := some { kind := .peer, station := st, module := none, lane := none }, claimKind := .new,
                 attempts := 1, wokenAt := none }))

/-- R37: the local claim is refused: the own number is avoided and the path cleared. -/
def localTurnedAway (s : State) : State :=
  (addAvoid s.own s).updCoc fun c => c.pathless

/-- R53, R55: SEEKING is entered: the search deadline is set when none runs. -/
def enterSeekingState (s : State) : State :=
  enterOrigin .seeking
    (s.updCoc fun c =>
      { c.pathless with
        retryTime := none
        searchDeadline := match c.searchDeadline with
                          | some d => some d
                          | none => some (s.now + searchTime) })

/-- R35, LOCAL, with R37 and R67: the record claims at its own arbiter. -/
def claimLocal (s : State) : State :=
  let s := enterOrigin .claiming
    (s.updCoc fun c =>
      { c with path := some { kind := .loc, station := s.own, module := none, lane := none }, claimKind := .new,
               attempts := 0 })
  let s := clearStale s.own s.coc.tag s
  let placed := s.updCoc fun c => { c with wokenAt := none }
  match localAnswer s with
  | .granted => placeLocal s.coc.tag placed
  | .queued =>
    let s := placeLocal s.coc.tag placed
    enterOrigin .queued (s.updCoc fun c => { c with queuePos := localPosition s.claims })
  | .refused _ => beginWait (enterSeekingState (localTurnedAway s))

/-- R35: SEEKING is entered, with a ranking whose outcome is acted on in the same event. -/
def enterSeeking (s : State) : State :=
  let s := enterSeekingState s
  match ranking s with
  | none => beginWait s
  | some c =>
    match c.kind with
    | .loc => claimLocal s
    | .peer => if s.laneMask = 0 then beginWait s else claimPeer c.station s

/-- R36: the record waits without a candidate. -/
def State.waitsForCandidate (s : State) : Bool := s.coc.state == .seeking && s.coc.retryTime.isSome

/-- R36: the no-candidate wait ends at this moment, with a new ranking. -/
def endWait (s : State) : State := enterSeeking (s.updCoc fun c => { c with wokenAt := some s.now })

/-- R36: an event ends the no-candidate wait. A second one in the same moment finds the wait ended, though the ranking of the
first found no candidate (log 38). -/
def wakeOrigin (s : State) : State := if s.waitsForCandidate ∧ s.coc.wokenAt ≠ some s.now then endWait s else s

/-- R36: the retry time is reached. -/
def retryReached (s : State) : State :=
  if s.waitsForCandidate ∧ s.due s.coc.retryTime then endWait s else s

/-- R37: the queued local claim is refused by its expiry. -/
def localRefusal (s : State) : State :=
  if s.coc.state = .queued ∧ s.onLocalPath = true then enterSeeking (localTurnedAway s) else s

/-! ## Fresh search (3.6) -/

/-- R49, steps 2 to 4: the recovery is counted, the search deadline set anew, the caller told. -/
def beginRecovery (s : State) : State :=
  enterOrigin .recovering
    (askPrompt .reconnecting
      (s.updCoc fun c => { c with recoveries := satInc c.recoveries, searchDeadline := some (s.now + searchTime) }))

/-- R52: a fresh search. From PROBING of a rejoin it goes on as from RECOVERING, whose recovery has been counted (log 40). -/
def freshSearch (s : State) : State :=
  let s := if s.coc.state = .dialing ∨ s.coc.state = .connected then beginRecovery s else s
  enterSeeking
    ((drawTag (s.updCoc fun c => { c.pathless with claimKind := .new, attempts := 0 })).updCoc fun c =>
      { c with searchDeadline := some (s.now + searchTime) })

/-- A path that has not been proven fails: RELEASE(ABANDON) first where the rule sends it. A NEW claim goes back to SEEKING
with the same tag (R38 to R45); a REJOIN begins a fresh search, with the uplink avoided when the call was never answered
(R50, R51; log 13). -/
def failPath (abandon : Bool) (s : State) : State :=
  let s := if abandon then releaseUplink .abandon s else s
  let s := (dropLane false s).updCoc Origin.settled
  match s.coc.claimKind with
  | .new => enterSeeking (avoidPath s)
  | .rejoin => freshSearch (if s.coc.answered then s else avoidPath s)

/-! ## Grants and probes (3.4) -/

/-- R41, step 2: the rejoin flag of a GRANT answers the claim kind. A flag that is neither 0 nor 1 answers no kind (log 39). -/
def flagMatches (kind : ClaimKind) (flag : Nat) : Bool :=
  match kind with
  | .new => flag == 0
  | .rejoin => flag == 1

/-- R41, step 4: the granted lane is taken and probed. -/
def probeLane (l : Lane) (m : Mod) (s : State) : State :=
  let s := takeLane l .origin s
  let s := enterOrigin .probing
    (s.updCoc fun c =>
      { c.settled with path := c.path.map fun p => { p with lane := some l, module := some m } })
  startEngine .origin l (seedOf s.own s.coc.tag.toNat) true true s

/-- R41: an accepted GRANT is taken. -/
def takeGrant (lane module flag : Nat) (s : State) : State :=
  match laneOfNumber lane, modOfCode module with
  | some l, some m =>
    if flagMatches s.coc.claimKind flag && originMayTake l s then probeLane l m s else failPath true s
  | _, _ => failPath true s

/-- R42, R51: the probe passes. -/
def probePasses (st : Station) (l : Lane) (s : State) : State :=
  let s := handOver (connectFrame st s.coc.tag l .pass) s
  let s := enterOrigin .dialing
    (s.updCoc fun c =>
      { c with stage := if c.claimKind = .rejoin then c.stage else none, searchDeadline := none })
  superviseLane l (setOriginRoutes s)

/-- R43: the probe fails; the record waits for a regrant. -/
def probeFails (st : Station) (l : Lane) (o : ProbeOutcome) (s : State) : State :=
  let s := dropLane true (handOver (connectFrame st s.coc.tag l o) s)
  s.updCoc fun c => { c with regrantWait := some (s.now + regrantTime) }

/-- R42, R43: the record's probe ends with an outcome. -/
def originProbeEnds (o : ProbeOutcome) (s : State) : State :=
  match s.coc.state, s.coc.peer, s.coc.lane with
  | .probing, some st, some l => if o = .pass then probePasses st l s else probeFails st l o s
  | _, _, _ => s

/-! ## Lane loss (R45, R49) -/

/-- R49: the record rejoins its carriage. -/
def recoverCall (st : Station) (s : State) : State :=
  let s := beginRecovery (dropLane false s)
  sendClaim .rejoin st (s.updCoc fun c => { c with claimKind := .rejoin, attempts := 1 })

/-- R45, R48: a lane loss reaches the record. -/
def originLaneLoss (s : State) : State :=
  match s.coc.peer with
  | none => s
  | some st =>
    if s.coc.state = .dialing ∧ s.coc.stage = none then
      let s := enterOrigin .probing (dropLane false s)
      s.updCoc fun c => { c with regrantWait := some (s.now + regrantTime) }
    else if s.coc.state = .dialing ∨ s.coc.state = .connected then recoverCall st s
    else s

/-! ## Frames from uplinks (3.2) -/

/-- R33: the record is in a state that awaits frames from its uplink. -/
def OriginState.awaitsUplink : OriginState → Bool
  | .claiming => true
  | .queued => true
  | .probing => true
  | .dialing => true
  | .connected => true
  | .recovering => true
  | .idle => false
  | .seeking => false
  | .failed => false

/-- R33: a frame with this sender and tag belongs to the present claim. -/
def State.belongs (s : State) (sender : Station) (tag : Tag) : Bool :=
  s.coc.state.awaitsUplink && s.coc.peer == some sender && s.coc.tag == tag

/-- R33: what is tested of every call-class frame first, after the length test of R171. -/
def originFrame (len : Nat) (f : Rx) (act : State → State) (s : State) : State :=
  if f.payload.length ≠ len then s.dropFrame
  else if f.target = 0 ∨ f.sender = 0 then s
  else act s

/-- The GRANT names the lane the record holds. -/
def namesHeld (lane : Nat) (s : State) : Bool :=
  match s.coc.lane with
  | some l => laneNumber l == lane
  | none => false

/-- R33, R39 to R45, R50: a GRANT of the present claim, by the record's state. -/
def ownGrant (sender : Station) (tag : Tag) (lane module flag : Nat) (s : State) : State :=
  let late := handOver (releaseFrame sender tag .late) s
  match s.coc.state with
  | .claiming => takeGrant lane module flag s
  | .queued => takeGrant lane module flag s
  | .recovering => takeGrant lane module flag s
  | .probing =>
    if s.coc.lane = none then takeGrant lane module flag s
    else if namesHeld lane s then s
    else takeGrant lane module flag (dropLane true s)
  | .dialing =>
    if s.coc.stage = none then
      if namesHeld lane s then
        match s.coc.lane with
        | some l => handOver (connectFrame sender tag l .pass) s
        | none => s
      else takeGrant lane module flag (dropLane true s)
    else if namesHeld lane s then s
    else late
  | .connected => if namesHeld lane s then s else late
  | .idle => s
  | .seeking => s
  | .failed => s

/-- R33: a GRANT delivered to the origin record. -/
def originGrant (f : Rx) (s : State) : State :=
  let tag := octetAt f.payload 0
  if s.belongs f.sender.toNat tag then
    ownGrant f.sender.toNat tag (octAt f.payload 1) (octAt f.payload 2) (octAt f.payload 3) s
  else handOver (releaseFrame f.sender.toNat tag .late) s

/-- R39, R40: a WAIT delivered to the origin record. -/
def originWait (f : Rx) (s : State) : State :=
  if s.belongs f.sender.toNat (octetAt f.payload 0) then
    let noted := s.updCoc fun c =>
      { c with queuePos := some (octAt f.payload 1), silenceDeadline := some (s.now + silenceTime),
               answerDeadline := none }
    match s.coc.state with
    | .claiming => enterOrigin .queued noted
    | .queued => noted
    | .idle => s
    | .seeking => s
    | .probing => s
    | .dialing => s
    | .connected => s
    | .recovering => s
    | .failed => s
  else s

/-- R38, R50: the claim of the record is sent again. -/
def claimAgain (st : Station) (s : State) : State :=
  sendClaim s.coc.claimKind st (s.updCoc fun c => { c with attempts := c.attempts + 1 })

/-- R50: a REFUSE in RECOVERING. -/
def rejoinRefused (r : RefuseReason) (st : Station) (s : State) : State :=
  let s := s.updCoc fun c => { c with answerDeadline := none }
  if r = .noLane then
    if s.coc.attempts < 3 then claimAgain st s else freshSearch (releaseUplink .abandon s)
  else freshSearch s

/-- R39, R40, R43 to R45, R50: a REFUSE delivered to the origin record. -/
def originRefuse (f : Rx) (s : State) : State :=
  if s.belongs f.sender.toNat (octetAt f.payload 0) then
    match s.coc.state with
    | .claiming => failPath false s
    | .queued => failPath false s
    | .probing => failPath false s
    | .dialing => if s.coc.stage = none then failPath false s else s
    | .recovering => rejoinRefused (refuseOf (octAt f.payload 1)) f.sender.toNat s
    | .connected => s
    | .idle => s
    | .seeking => s
    | .failed => s
  else s

/-- R46: a PROGRESS delivered to the origin record. A stage octet outside the table is discarded (log 15). -/
def originProgress (f : Rx) (s : State) : State :=
  if s.belongs f.sender.toNat (octetAt f.payload 0) then
    match stageOf (octAt f.payload 1) with
    | some st => originStage st (be24At f.payload 2) s
    | none => s
  else s

/-- R47: the use of the path ends in DIALING or CONNECTED. -/
def pathEnds (r : ReleaseReason) (s : State) : State :=
  let s := dropLane false s
  match r with
  | .farClear => enterIdle (s.updCoc fun c => { c with endReason := .farClear })
  | .allNetworksFailed =>
    if s.coc.answered then freshSearch (avoidPath s) else enterSeeking (avoidPath s)
  | .netDrop => afterDrop s
  | .laneLost => afterDrop s
  | .moduleFault => afterDrop s
  | .late => afterDrop s
  | .abandon => afterDrop s
  | .restart => afterDrop s
where
  /-- R47, the last row: a call once answered is not held against the uplink. -/
  afterDrop (s : State) : State := if s.coc.answered then freshSearch s else enterSeeking (avoidPath s)

/-- R50: a RELEASE in RECOVERING. -/
def rejoinReleased (r : ReleaseReason) (s : State) : State :=
  if r = .farClear then enterIdle (s.updCoc fun c => { c with endReason := .farClear })
  else freshSearch (if s.coc.answered = false ∨ r = .allNetworksFailed then avoidPath s else s)

/-- R39, R40, R43, R44, R47, R50: a RELEASE of the present claim. -/
def ownRelease (r : ReleaseReason) (s : State) : State :=
  match s.coc.state with
  | .claiming => failPath false s
  | .queued => failPath false s
  | .probing => failPath false s
  | .dialing => pathEnds r s
  | .connected => pathEnds r s
  | .recovering => rejoinReleased r s
  | .idle => s
  | .seeking => s
  | .failed => s

/-- R33: a RELEASE delivered to the origin record; its length and target have been tested. -/
def originRelease (r : ReleaseReason) (f : Rx) (s : State) : State :=
  if f.target = 0 ∨ f.sender = 0 then s
  else if s.belongs f.sender.toNat (octetAt f.payload 0) then ownRelease r s
  else s

/-- R47: an end notice from the local carriage. -/
def localEnds (r : ReleaseReason) (s : State) : State :=
  if s.onLocalPath ∧ (s.coc.state = .dialing ∨ s.coc.state = .connected) then pathEnds r s else s

/-! ## Deadlines -/

/-- R38, R50: the answer deadline is reached. -/
def answerReached (s : State) : State :=
  if s.due s.coc.answerDeadline then
    match s.coc.peer with
    | none => s
    | some st =>
      match s.coc.state with
      | .claiming => if s.coc.attempts < 3 then claimAgain st s else failPath true s
      | .recovering =>
        if s.coc.attempts < 3 then claimAgain st s else freshSearch (avoidPath (releaseUplink .abandon s))
      | .idle => s
      | .seeking => s
      | .queued => s
      | .probing => s
      | .dialing => s
      | .connected => s
      | .failed => s
  else s

/-- R40: the silence deadline is reached. -/
def silenceReached (s : State) : State :=
  if s.coc.state = .queued ∧ s.due s.coc.silenceDeadline then failPath true s else s

/-- R43: the regrant wait is reached. -/
def regrantReached (s : State) : State :=
  if s.coc.state = .probing ∧ s.due s.coc.regrantWait then failPath true s else s

/-- R53: the search deadline is acted on in these states. -/
def OriginState.searching : OriginState → Bool
  | .seeking => true
  | .claiming => true
  | .queued => true
  | .probing => true
  | .recovering => true
  | .idle => false
  | .dialing => false
  | .connected => false
  | .failed => false

/-- R53, step 2: a queued local claim is withdrawn. -/
def withdrawOwn (s : State) : State :=
  if s.coc.state = .queued ∧ s.onLocalPath = true then withdrawLocal s.coc.tag s else s

/-- R53: the search fails. -/
def searchFails (s : State) : State :=
  let s := dropLane false (withdrawOwn (releaseUplink .abandon s))
  enterOrigin .failed
    (askPrompt .callFailed
      (s.updCoc fun c =>
        { c.pathless with searchDeadline := none, retryTime := none, failedUntil := some (s.now + failedDisplay) }))

/-- R53: the search deadline is reached. -/
def searchReached (s : State) : State :=
  if s.coc.state.searching ∧ s.due s.coc.searchDeadline then searchFails s else s

/-- R54: the FAILED display has ended. -/
def failedReached (s : State) : State :=
  if s.coc.state = .failed ∧ s.due s.coc.failedUntil then
    enterIdle (s.updCoc fun c => { c with endReason := .failed })
  else s

/-! ## Press, tick and RESTART -/

/-- R34: a new call. -/
def newCall (s : State) : State :=
  let s := s.updCoc fun c =>
    { c.pathless with searchDeadline := none, retryTime := none, wokenAt := none, failedUntil := none, answered := false,
                      recoveries := 0, dropouts := 0, attempts := 0 }
  let s := (drawTag s).count fun c => { c with callsOriginated := satInc c.callsOriginated }
  enterSeeking (askPrompt .connecting s)

/-- R34: a filtered press. -/
def originPress (s : State) : State :=
  if s.coc.state = .idle ∨ s.coc.state = .failed then newCall s
  else s.updCoc fun c => { c with pressesIgnored := satInc c.pressesIgnored }

/-- R55: the record plays PLEASE-WAIT at a tick. An absent stage is other than RINGING (log 14). -/
def Origin.wantsPleaseWait (c : Origin) : Bool :=
  c.state.searching || (c.state == .dialing && !c.answered && c.stage != some .ringing)

/-- R55: a period tick. -/
def originTick (s : State) : State :=
  if s.coc.wantsPleaseWait && !s.speakerPlays then askPrompt .pleaseWait s else s

/-- R57: a RESTART at the origin record. Its lamp request is taken by the panel under R158. -/
def restartOrigin (s : State) : State :=
  let s := if s.coc.state = .idle ∨ s.coc.state = .failed then s else releaseUplink .restart s
  let s := dropLane false s
  s.updCoc fun c =>
    { c.pathless with
      endReason := if c.state = .idle then c.endReason else .restart
      avoid := [], searchDeadline := none, retryTime := none, wokenAt := none, failedUntil := none, claimKind := .new,
      state := .idle }

end Sys2Proof.Machine
end

