-- ==== Sys2Proof/Machine/Events.lean ====
section
/-! DEFINITION. The frame of an event: the time it is taken at, its operation, the notices that follow in the same event, and
the offer builder's comparison at its end (log 1, 9, 10). -/

namespace Sys2Proof.Machine

/-- An event is taken: the present time moves on, the outputs of the last command are gone, and no notice outlives its
event. -/
def startEvent (t : Time) (s : State) : State := { s with now := max s.now t, out := [], notices := [] }

/-- An operation with the notices of the modules it made grantable (R113). -/
def noting (op : State → State) (s : State) : State := noteFreed s (op s)

/-- What a notice brings about (R12, R36, R37, R47, R73, R113, R122). -/
def handleNotice (n : Notice) (s : State) : State :=
  match n with
  | .grantable _ => noting wakeOrigin (noting serve s)
  | .laneFree _ => noting wakeOrigin (noting serveOnLane s)
  | .newEntry => noting wakeOrigin s
  | .localEnd r => noting (localEnds r) s
  | .localRefused => noting localRefusal s

/-- The notices of an event are taken in the order given, with those they give in turn; the fuel bounds their number. -/
def drain : Nat → State → State
  | 0, s => s
  | n + 1, s =>
    match s.notices with
    | [] => s
    | x :: rest => drain n (handleNotice x { s with notices := rest })

/-- The number of notices one event can bring about. -/
def noticeFuel : Nat := 64

/-- An event that can concern several blocks. While a full reset lasts, nothing is read and only the time moves (R175). -/
def event (t : Time) (op : State → State) (s : State) : State :=
  let s0 := startEvent t s
  if s0.inReset then s0 else offerSync s0 (drain noticeFuel (noting op s0))

/-- An event that stays within one block: it gives no notice and leaves the own offer as it is. -/
def localEvent (t : Time) (op : State → State) (s : State) : State :=
  let s0 := startEvent t s
  if s0.inReset then s0 else op s0

end Sys2Proof.Machine
end

