-- ==== Sys2Proof/Machine/ArbiterCommands.lean ====
section
/-! DEFINITION. The commands of the claim queue's and the carriages' times (04, 05). -/

namespace Sys2Proof.Machine

/-- WAIT_REFRESH (R70). -/
def execWaitRefresh (t : Time) (origin : Station) (tag : Tag) (s : State) : Host.Outcome State Fault Refusal :=
  .next (localEvent t (refreshWait origin tag) s)

/-- QUEUE_ENTRY_EXPIRY (R71, R73). -/
def execQueueEntryExpiry (t : Time) (origin : Station) (tag : Tag) (s : State) : Host.Outcome State Fault Refusal :=
  .next (event t (claimExpires origin tag) s)

/-- CONNECT_DEADLINE (R81). -/
def execConnectDeadline (t : Time) (m : Mod) (s : State) : Host.Outcome State Fault Refusal :=
  .next (event t (connectExpires m) s)

/-- RING_DEADLINE (R88). -/
def execRingDeadline (t : Time) (m : Mod) (s : State) : Host.Outcome State Fault Refusal :=
  .next (event t (ringExpires m) s)

/-- REJOIN_DEADLINE (R94). -/
def execRejoinDeadline (t : Time) (m : Mod) (s : State) : Host.Outcome State Fault Refusal :=
  .next (event t (rejoinExpires m) s)

end Sys2Proof.Machine
end

