-- ==== Sys2Proof/Machine/BandCommands.lean ====
section
/-! DEFINITION. The commands of the control band below whole frames (10, 10.1 to 10.3). -/

namespace Sys2Proof.Machine

/-- BAND_ACTIVITY (R164, R165). -/
def execBandActivity (t : Time) (s : State) : Host.Outcome State Fault Refusal := .next (localEvent t bandActive s)

/-- BAND_QUIET (R164). -/
def execBandQuiet (t : Time) (s : State) : Host.Outcome State Fault Refusal := .next (localEvent t bandFallsQuiet s)

/-- SEND_START (R165). -/
def execSendStart (t : Time) (s : State) : Host.Outcome State Fault Refusal := .next (localEvent t startSending s)

/-- FRAME_SENT (R166, R167). -/
def execFrameSent (t : Time) (s : State) : Host.Outcome State Fault Refusal := .next (localEvent t sendingDone s)

/-- COLLISION (R166). -/
def execCollision (t : Time) (s : State) : Host.Outcome State Fault Refusal := .next (localEvent t sendingCollides s)

/-- FRAME_DISCARDED (R163). -/
def execFrameDiscarded (t : Time) (e : RxError) (s : State) : Host.Outcome State Fault Refusal :=
  .next (localEvent t (discardReception e) s)

end Sys2Proof.Machine
end

