-- ==== Sys2Proof/Machine/Service.lean ====
section
/-! DEFINITION. The Service Responder (12): status reports, service counters, lane-test orders and the RESTART order. -/

namespace Sys2Proof.Machine

/-! ## STATUS-REPORT GENERAL (12.1) -/

def originStateCode : OriginState → Nat
  | .idle => 0
  | .seeking => 1
  | .claiming => 2
  | .queued => 3
  | .probing => 4
  | .dialing => 5
  | .connected => 6
  | .recovering => 7
  | .failed => 8

/-- A stage in bits 6..4: 0 when absent. -/
def stageField (st : Option Stage) : Nat :=
  match st with
  | none => 0
  | some x => stageCode x + 1

def endReasonCode : EndReason → Nat
  | .none => 0
  | .farClear => 1
  | .failed => 2
  | .restart => 3

def restartCode : RestartOutcome → Nat
  | .none => 0
  | .done => 1
  | .refused => 2

def carriageStateCode : CarriageState → Nat
  | .granted => 1
  | .dialing => 2
  | .ringing => 3
  | .connected => 4
  | .awaitRejoin => 5
  | .clearing => 6

/-- A lane's number, 0 for none. -/
def laneField (l : Option Lane) : Nat :=
  match l with
  | some x => laneNumber x
  | none => 0

/-- Octets 12–20 and 21–29: a carriage. An absent one is sent with all its octets 0, and a network not yet named as 0
(log 36). DESIGN CHOICE (log 53): bits 3 and 7 of its first octet, which 12.1 does not name, are sent as 0. -/
def carriageOctets (c : Option Carriage) : List Octet :=
  match c with
  | none => [0, 0, 0, 0, 0, 0, 0, 0, 0]
  | some x =>
    [oct (carriageStateCode x.state + 16 * stageField x.lastStage), oct x.origin, x.tag, oct (laneField x.lane)]
      ++ be24 (x.network.getD 0) ++ be16 x.dropouts.toNat

def occupancyCode : Occupancy → Nat
  | .free => 0
  | .busy => 1
  | .own => 2

def ownerCode : Option Owner → Nat
  | none => 0
  | some .origin => 1
  | some (.carriage .a) => 2
  | some (.carriage .b) => 3
  | some .laneTest => 4

/-- Octets 30–35: one lane. -/
def laneOctet (x : LaneEntry) : Octet :=
  oct (occupancyCode x.occupancy + 4 * ownerCode x.owner + 32 * boolNat x.carrierA + 64 * boolNat x.carrierB
    + 128 * boolNat x.quarantineUntil.isSome)

/-- Octet 8. DESIGN CHOICE (log 53): 12.1 gives the supply no numbers, and it is sent as in the OFFER (01, 1.3). -/
def flagsOctet (s : State) : Octet :=
  oct (supplyCode s.supply.state + 4 * boolNat s.offeringFlag + 8 * boolNat s.band.dupFault
    + 16 * endReasonCode s.coc.endReason + 64 * restartCode s.svc.lastRestart)

/-- The 39 octets of GENERAL. DESIGN CHOICE (log 53): bit 7 of octet 0, which 12.1 does not name, is sent as 0. -/
def generalOctets (s : State) : List Octet :=
  [oct (originStateCode s.coc.state + 16 * stageField s.coc.stage), s.coc.tag, oct s.coc.recoveries.toNat]
    ++ be16 s.coc.dropouts.toNat ++ be24 (s.coc.network.getD 0) ++ [flagsOctet s, oct s.claims.length]
    ++ be16 s.band.dupFrames.toNat ++ carriageOctets s.carriages.a ++ carriageOctets s.carriages.b
    ++ allLanes.map (fun l => laneOctet (s.lane l)) ++ [oct (s.coc.queuePos.getD 0)]
    ++ be16 s.coc.pressesIgnored.toNat

/-! ## COUNTERS and MODULES (12.1, R179) -/

/-- The 18 octets of COUNTERS, in the order of R179. -/
def counterOctets (c : Counters) : List Octet :=
  be16 c.framesSent.toNat ++ be16 c.collisions.toNat ++ be16 c.framesDropped.toNat ++ be16 c.checkErrors.toNat
    ++ be16 c.callsOriginated.toNat ++ be16 c.callsGranted.toNat ++ be16 c.probeFailures.toNat
    ++ be16 c.laneLosses.toNat ++ be16 c.moduleFaults.toNat

def moduleStateCode : ModuleState → Nat
  | .absent => 0
  | .powering => 1
  | .scanning => 2
  | .noService => 3
  | .selecting => 4
  | .ready => 5
  | .refreshing => 6
  | .dialing => 7
  | .ringing => 8
  | .inCall => 9
  | .hangingUp => 10
  | .fault => 11
  | .disabled => 12

/-- A network-table entry of MODULES; an absent one has all 32 bits set. DESIGN CHOICE (log 53): bits 21 and 20 of its first three
octets, which 12.1 does not name, are sent as 0. -/
def netOctets (n : Option Net) : List Octet :=
  match n with
  | none => [255, 255, 255, 255]
  | some x =>
    be24 (8388608 * boolNat x.barred + 4194304 * boolNat x.penalisedUntil.isSome + x.code) ++ [oct x.quality]

/-- A module's 20 octets of MODULES. -/
def moduleOctets (r : Module) : List Octet :=
  be24 (1048576 * moduleStateCode r.state + r.selected.getD 1048575) ++ [oct (min r.linkErrors.toNat 255)]
    ++ netOctets r.table[0]? ++ netOctets r.table[1]? ++ netOctets r.table[2]? ++ netOctets r.table[3]?

/-! ## Orders delivered to the responder (12.2) -/

/-- R178: the three tests. -/
def serviceFrame (len : Nat) (f : Rx) (act : State → State) (s : State) : State :=
  if f.target = 0 ∨ f.sender = 0 then s
  else if f.payload.length ≠ len then s.dropFrame
  else act s

def statusReport (target : Octet) (payload : List Octet) : Frame :=
  { kind := .statusReport, target := target, payload := payload }

/-- R178: the report of a part; a part above 3 is answered with GENERAL. -/
def reportOf (part : Nat) (s : State) : List Octet :=
  match part with
  | 1 => counterOctets s.counters
  | 2 => moduleOctets s.modules.a ++ moduleOctets s.modules.b
  | 3 => recordOctets s.svc.record
  | _ => generalOctets s

/-- R178, R179: a STATUS-QUERY; a COUNTERS query with clear flag 1 sets the counters to 0 after the hand-over. -/
def statusQuery (f : Rx) (s : State) : State :=
  let s := handOver (statusReport f.sender (reportOf (octAt f.payload 0) s)) s
  if octAt f.payload 0 = 1 ∧ octAt f.payload 1 = 1 then s.count fun _ => Counters.zero else s

/-! ## Lane tests (12.3) -/

/-- R180: the fields of a TEST-ORDER are in range, but for its lane. -/
def testFieldsOk (p : List Octet) : Bool :=
  decide (octAt p 2 ≤ 10 ∧ octAt p 3 ≤ 12 ∧ octAt p 4 ≤ 31 ∧ octAt p 5 ≤ 31 ∧ octAt p 6 ≤ 10)

/-- R180: the lane of an order that is accepted. -/
def testLane (p : List Octet) (s : State) : Option Lane :=
  if s.recordActive ∨ s.own = 0 ∨ testFieldsOk p = false then none
  else
    match laneOfNumber (octAt p 1) with
    | some l => if (s.lane l).freeForChoosing then some l else none
    | none => none

/-- R180: the order is refused: the lane and zeros in the other fields. -/
def refuseTest (f : Rx) (s : State) : State :=
  handOver
    (testReportFrame f.sender { ResultRecord.none with result := .refused, lane := octetAt f.payload 1 }) s

/-- R180: the test an order describes. -/
def orderedTest (role : TestRole) (l : Lane) (f : Rx) (now : Time) : LaneTest :=
  { role := role, lane := l, orderer := f.sender, lengthExp := octAt f.payload 2, intervalExp := octAt f.payload 3,
    startBit := octAt f.payload 4, walk := octAt f.payload 5, burstExp := octAt f.payload 6, start := now,
    dropouts := 0, largest := 0 }

/-- R180: the test in progress is recorded. -/
def recordTest (role : TestRole) (l : Lane) (f : Rx) (s : State) : State :=
  { s with svc := { s.svc with test := some (orderedTest role l f s.now) } }

/-- R180, R181: a GENERATE order. -/
def orderGenerate (f : Rx) (s : State) : State :=
  match testLane f.payload s with
  | some l =>
    startEngine .laneTest l (seedOf s.own 0) true false (takeLane l .laneTest (recordTest .generate l f s))
  | none => refuseTest f s

/-- R180, R182: a CHECK order: the lane is held, its occupancy left to sensing. -/
def orderCheck (f : Rx) (s : State) : State :=
  match testLane f.payload s with
  | some l =>
    startEngine .laneTest l 0 false true
      ((recordTest .check l f s).updLane l fun x => { x with owner := some .laneTest })
  | none => refuseTest f s

/-- R183: a STOP order. -/
def orderStop (f : Rx) (s : State) : State :=
  if s.svc.test.isSome then endTest .aborted s else handOver (testReportFrame f.sender s.svc.record) s

/-- R180: a TEST-ORDER, by its role. -/
def testOrder (f : Rx) (s : State) : State :=
  match octAt f.payload 0 with
  | 0 => orderGenerate f s
  | 1 => orderCheck f s
  | 2 => orderStop f s
  | _ => refuseTest f s

/-! ## RESTART (12.4) -/

/-- R98: a carriage at a RESTART: RELEASE(RESTART) to a PEER origin, but from CLEARING; then its removal. -/
def restartCarriage (m : Mod) (s : State) : State :=
  match s.car m with
  | none => s
  | some c =>
    removeCarriage m
      (if c.kind = .peer ∧ c.state ≠ .clearing then handOver (releaseFrame c.origin c.tag .restart) s else s)

/-- R78, R140, R152, R168: the band's queue is emptied before any frame of the event, the switch and the lanes take their
RESTART condition before the records clear what they held, and the claim queue is emptied before a module comes free. -/
def restartGround (s : State) : State :=
  { restartLanes { emptyBand s with csw := Switch.reset } with claims := [] }

/-- R183: a test in progress ends ABORTED; its report is handed over last. -/
def restartTest (s : State) : State :=
  match s.svc.test with
  | some t => closeTest t .aborted s
  | none => s

/-- R184: the blocks take their RESTART conditions. -/
def restartBlocks (s : State) : State :=
  let s := restartTest (restartCarriage .b (restartCarriage .a (restartOrigin (restartGround s))))
  startSchedule (restartLamp { s with offerTable := [] })

def setRestartOutcome (r : RestartOutcome) (s : State) : State := { s with svc := { s.svc with lastRestart := r } }

/-- The answer to a RESTART, and its refusal: STATUS-REPORT GENERAL to the sender. -/
def answerGeneral (target : Octet) (s : State) : State := handOver (statusReport target (generalOctets s)) s

/-- R184: the RESTART is carried out. -/
def carryOutRestart (target : Octet) (s : State) : State :=
  let test := s.svc.test
  let s := answerGeneral target (setRestartOutcome .done (restartBlocks s))
  match test with
  | some t => handOver (testReportFrame t.orderer s.svc.record) s
  | none => s

/-- R184: a RESTART order; a force octet above 1 is taken as 0. -/
def restartOrder (f : Rx) (s : State) : State :=
  if octAt f.payload 0 ≠ 1 ∧ s.recordActive = true then
    answerGeneral f.sender (setRestartOutcome .refused s)
  else carryOutRestart f.sender s

end Sys2Proof.Machine
end

