-- ==== Sys2Proof/Machine/Reception.lean ====
section
/-! DEFINITION. The reception of a complete frame (10, 10.4): its tests, and its delivery to the block that owns its kind. -/

namespace Sys2Proof.Machine

/-- R172: a frame of another station bearing the own number, at a station whose number is 1..31. -/
def duplicateHeard (s : State) : State :=
  if s.own = 0 then s
  else formWanted (s.updBand fun b => { b with dupFault := true, dupFrames := satInc b.dupFrames })

/-- R171: a RELEASE goes by its reason: to the origin record, to the arbiter, or to both, the origin record first (log 9). -/
def deliverRelease (f : Rx) (s : State) : State :=
  if f.payload.length ≠ 2 then s.dropFrame
  else
    match releaseOf (octAt f.payload 1) with
    | some .farClear => originRelease .farClear f s
    | some .netDrop => originRelease .netDrop f s
    | some .laneLost => originRelease .laneLost f s
    | some .moduleFault => originRelease .moduleFault f s
    | some .allNetworksFailed => originRelease .allNetworksFailed f s
    | some .late => arbiterRelease f s
    | some .abandon => arbiterRelease f s
    | some .restart => arbiterRelease f (originRelease .restart f s)
    | none => arbiterRelease f (originRelease .abandon f s)

/-- R171: a frame is delivered to the owner of its kind. -/
def deliver (kind : Nat) (f : Rx) (s : State) : State :=
  match kindOf kind with
  | some .grant => originFrame 4 f (originGrant f) s
  | some .wait => originFrame 2 f (originWait f) s
  | some .refuse => originFrame 2 f (originRefuse f) s
  | some .progress => originFrame 5 f (originProgress f) s
  | some .release => deliverRelease f s
  | some .connect => arbiterConnect f s
  | some .claim => arbiterClaim f s
  | some .offer => receiveOffer f s
  | some .statusQuery => serviceFrame 2 f (statusQuery f) s
  | some .testOrder => serviceFrame 7 f (testOrder f) s
  | some .restart => serviceFrame 1 f (restartOrder f) s
  | some .statusReport => s
  | some .testReport => s
  | none => s

/-- R170: what becomes of a complete frame that is not the own echo. -/
def takeFrame (kind : Nat) (f : Rx) (s : State) : State :=
  match rxVerdict s.own kind f with
  | .duplicate => duplicateHeard s
  | .ignored => s
  | .dropped => s.dropFrame
  | .delivered => deliver kind f s

/-- R163, R170: a complete frame that is not the own echo is read, and taken through its tests. -/
def receive (kind : Nat) (f : Rx) (s : State) : State := readFrame f.payload.length (takeFrame kind f) s

end Sys2Proof.Machine
end

