-- ==== Sys2Proof/Machine/FrameCommands.lean ====
section
/-! DEFINITION. The commands of a received frame: one row for each kind and use, all taken through the tests of R170 by the kind
code of their row (log 7). -/

namespace Sys2Proof.Machine

/-- OFFER (R11, R12). -/
def execOffer (t : Time) (f : Rx) (s : State) : Host.Outcome State Fault Refusal := .next (event t (receive 16 f) s)

/-- OFFER_WITHDRAWAL (R11, R13). -/
def execOfferWithdrawal (t : Time) (f : Rx) (s : State) : Host.Outcome State Fault Refusal :=
  .next (event t (receive 16 f) s)

/-- GRANT (R33, R39 to R45, R50). -/
def execGrant (t : Time) (f : Rx) (s : State) : Host.Outcome State Fault Refusal := .next (event t (receive 1 f) s)

/-- WAIT (R33, R39, R40). -/
def execWait (t : Time) (f : Rx) (s : State) : Host.Outcome State Fault Refusal := .next (event t (receive 2 f) s)

/-- REFUSE (R33, R39, R40, R43 to R45, R50, R171). -/
def execRefuse (t : Time) (f : Rx) (s : State) : Host.Outcome State Fault Refusal := .next (event t (receive 3 f) s)

/-- PROGRESS (R33, R44, R46, R50). -/
def execProgress (t : Time) (f : Rx) (s : State) : Host.Outcome State Fault Refusal := .next (event t (receive 5 f) s)

/-- RELEASE_FROM_UPLINK (R33, R39, R40, R43, R44, R47, R50, R171). -/
def execReleaseFromUplink (t : Time) (f : Rx) (s : State) : Host.Outcome State Fault Refusal :=
  .next (event t (receive 6 f) s)

/-- RELEASE_FROM_ORIGIN (R60, R72, R83, R171). -/
def execReleaseFromOrigin (t : Time) (f : Rx) (s : State) : Host.Outcome State Fault Refusal :=
  .next (event t (receive 6 f) s)

/-- RELEASE_RESTART: to the origin record and to the arbiter (R171). -/
def execReleaseRestart (t : Time) (f : Rx) (s : State) : Host.Outcome State Fault Refusal :=
  .next (event t (receive 6 f) s)

/-- CLAIM_NEW (R60 to R65). -/
def execClaimNew (t : Time) (f : Rx) (s : State) : Host.Outcome State Fault Refusal := .next (event t (receive 7 f) s)

/-- CLAIM_REJOIN (R60, R69, R96). -/
def execClaimRejoin (t : Time) (f : Rx) (s : State) : Host.Outcome State Fault Refusal := .next (event t (receive 7 f) s)

/-- CONNECT (R60, R80, R81). -/
def execConnect (t : Time) (f : Rx) (s : State) : Host.Outcome State Fault Refusal := .next (event t (receive 4 f) s)

/-- DUPLICATE_NUMBER_FRAME (R163; R170, test 2; R172): a frame of 40 payload octets at most, not read further. -/
def execDuplicateNumberFrame (t : Time) (s : State) : Host.Outcome State Fault Refusal :=
  .next (event t (readFrame 0 duplicateHeard) s)

/-- UNKNOWN_KIND_FRAME (R170, tests 4 and 5). -/
def execUnknownKindFrame (t : Time) (kind : Octet) (f : Rx) (s : State) : Host.Outcome State Fault Refusal :=
  .next (event t (receive kind.toNat f) s)

/-- REPORT_FRAME_HEARD: a STATUS-REPORT or TEST-REPORT (R170, R171). -/
def execReportFrameHeard (t : Time) (f : Rx) (s : State) : Host.Outcome State Fault Refusal :=
  .next (event t (receive 33 f) s)

/-- STATUS_QUERY_GENERAL (R178). -/
def execStatusQueryGeneral (t : Time) (f : Rx) (s : State) : Host.Outcome State Fault Refusal :=
  .next (event t (receive 32 f) s)

/-- STATUS_QUERY_COUNTERS (R178, R179). -/
def execStatusQueryCounters (t : Time) (f : Rx) (s : State) : Host.Outcome State Fault Refusal :=
  .next (event t (receive 32 f) s)

/-- STATUS_QUERY_MODULES (R178). -/
def execStatusQueryModules (t : Time) (f : Rx) (s : State) : Host.Outcome State Fault Refusal :=
  .next (event t (receive 32 f) s)

/-- STATUS_QUERY_LAST_TEST (R178). -/
def execStatusQueryLastTest (t : Time) (f : Rx) (s : State) : Host.Outcome State Fault Refusal :=
  .next (event t (receive 32 f) s)

/-- TEST_ORDER_GENERATE (R180, R181). -/
def execTestOrderGenerate (t : Time) (f : Rx) (s : State) : Host.Outcome State Fault Refusal :=
  .next (event t (receive 34 f) s)

/-- TEST_ORDER_CHECK (R180, R182). -/
def execTestOrderCheck (t : Time) (f : Rx) (s : State) : Host.Outcome State Fault Refusal :=
  .next (event t (receive 34 f) s)

/-- TEST_ORDER_STOP (R183). -/
def execTestOrderStop (t : Time) (f : Rx) (s : State) : Host.Outcome State Fault Refusal :=
  .next (event t (receive 34 f) s)

/-- RESTART (R184). -/
def execRestart (t : Time) (f : Rx) (s : State) : Host.Outcome State Fault Refusal := .next (event t (receive 36 f) s)

end Sys2Proof.Machine
end

