-- ==== Sys2Proof/Machine/Probes.lean ====
section
/-! DEFINITION. What the words, the limits and the gaps of the lanes bring about at the users of the probe engines and the
owners of the lanes (07; R182). -/

namespace Sys2Proof.Machine

/-! ## Outcomes (R131, R137, R182) -/

/-- R137: an outcome other than PASS of a call probe is counted. -/
def countProbeFailure (o : ProbeOutcome) (s : State) : State :=
  if o = .pass then s else s.count fun c => { c with probeFailures := satInc c.probeFailures }

/-- A lane test's result of an outcome that is not a completed check. -/
def testResultOf : ProbeOutcome → TestResult
  | .pass => .pass
  | .errors => .errors
  | .drift => .drift
  | .stuck => .stuck
  | .nosync => .nosync
  | .timeout => .timeout

/-- The checker has ended with an outcome, which is reported to the engine's user. -/
def reportOutcome (e : EngineId) (o : ProbeOutcome) (s : State) : State :=
  let user := (s.engine e).user
  let s := s.updEngine e Engine.finish
  match user with
  | some .origin => originProbeEnds o (countProbeFailure o s)
  | some (.carriage m) => carriageProbeEnds m o (countProbeFailure o s)
  | some .laneTest => endTest (testResultOf o) s
  | none => s

/-! ## Bit clocks and words (R132 to R136, R182) -/

/-- The words an engine's check compares. -/
def wordGoal (e : EngineId) (s : State) : Nat :=
  match (s.engine e).user, s.svc.test with
  | some .laneTest, some t => testGoal t.lengthExp
  | _, _ => 1024

/-- R182: the largest magnitude that the compare of a lane test's checker has reached. -/
def noteLargest (e : EngineId) (peak : Nat) (s : State) : State :=
  if e = .e0 ∧ s.engines.e0.user = some .laneTest then
    { s with svc := { s.svc with test := s.svc.test.map fun t => { t with largest := max t.largest peak } } }
  else s

/-- R136, R182: bit clocks heard by a checker in CHECK move its compare, and a lane test keeps the largest magnitude. -/
def countClocks (e : EngineId) (edges : List ClockEdge) (s : State) : State :=
  let x := s.engine e
  if x.checker = .check then
    (noteLargest e (comparePeak x.compare edges) s).updEngine e fun x => x.clocked edges
  else s

/-- R136: carrier is heard on the half that an engine receives. -/
def engineHears (e : EngineId) (s : State) : Bool :=
  match (s.engine e).lane, (s.engine e).receiveHalf with
  | some l, some h => (s.lane l).heard h
  | _, _ => false

/-- R182: the compare of a lane test returns to 0 after every 1,024 compared words; `before` were compared before this word. -/
def wrapCompare (e : EngineId) (before : Nat) (s : State) : State :=
  let x := s.engines.e0
  if e = .e0 ∧ x.user = some .laneTest ∧ before < x.compared ∧ x.compared % 1024 = 0 then
    s.updEngine .e0 fun y => { y with compare := 0 }
  else s

/-- R137, R182: the outcome of the last compared word. -/
def completeOutcome (e : EngineId) (s : State) : State :=
  match (s.engine e).user, s.svc.test with
  | some .laneTest, some t => endTest (testOutcome t s.engines.e0) s
  | _, _ => reportOutcome e (s.engine e).checkOutcome s

/-- A word reaches a checker, after the bit clocks that came with it. -/
def wordArrives (i : WordIn) (s : State) : State :=
  let s := countClocks i.engine i.edges s
  let x := s.engine i.engine
  let r := x.word i (wordGoal i.engine s) s.now
  let s := wrapCompare i.engine x.compared (s.updEngine i.engine fun _ => r.1)
  match r.2 with
  | none => s
  | some .stuck => reportOutcome i.engine .stuck s
  | some .nosync => reportOutcome i.engine .nosync s
  | some .complete => completeOutcome i.engine s

/-- What a half brings to its checker: a whole word, or bit clocks as they come, which count while carrier is heard (R136;
log 8). -/
def lineArrives (w : LineIn) (s : State) : State :=
  match w with
  | .word i => wordArrives i s
  | .clocks e edges => if engineHears e s then countClocks e edges s else s

/-! ## Limits -/

/-- R137: 600 ms have passed since the start of a call probe's checker. -/
def probeTimesOut (e : EngineId) (s : State) : State :=
  let x := s.engine e
  if x.checking ∧ x.user ≠ some .laneTest ∧ x.checkStart + probeLimit ≤ s.now then
    reportOutcome e .timeout (s.updEngine e fun x => { x with checker := .ended })
  else s

/-- The length of a test's generation (R181). -/
def testTime (lengthExp : Nat) : Time := ms (256 * 2 ^ lengthExp)

/-- R181: the last word of a generating test has been sent. -/
def generationEnds (s : State) : State :=
  match s.svc.test with
  | some t => if t.role = .generate ∧ t.start + testTime t.lengthExp ≤ s.now then endTest .generated s else s
  | none => s

/-- R182: a checking test has reached its overall limit. -/
def testTimesOut (s : State) : State :=
  match s.svc.test with
  | some t => if t.role = .check ∧ t.start + testTime t.lengthExp + ms 2000 ≤ s.now then endTest .timeout s else s
  | none => s

/-! ## Lane loss (R139) -/

/-- A lane loss is reported to the owner of the lane. -/
def reportLaneLoss (o : Owner) (s : State) : State :=
  match o with
  | .origin => originLaneLoss s
  | .carriage m => carriageLaneLoss m s
  | .laneTest => s

/-- R139: a supervised gap reaches 400 ms. -/
def loseLane (l : Lane) (s : State) : State :=
  let x := s.lane l
  match x.owner with
  | some o =>
    if x.supervised ∧ s.due (x.gapStart.map (· + lossTime)) then
      reportLaneLoss o (endSupervision l (s.count fun c => { c with laneLosses := satInc c.laneLosses }))
    else s
  | none => s

end Sys2Proof.Machine
end

