-- ==== Sys2Proof/Machine/LaneCommands.lean ====
section
/-! DEFINITION. The commands of the lanes, the probe engines and the lane test's times (07, 12). -/

namespace Sys2Proof.Machine

/-- CARRIER_HEARD (R121, R122, R138). -/
def execCarrierHeard (t : Time) (l : Lane) (h : Half) (s : State) : Host.Outcome State Fault Refusal :=
  .next (localEvent t (carrierRises l h) s)

/-- CARRIER_NOT_HEARD (R121, R138). -/
def execCarrierNotHeard (t : Time) (l : Lane) (h : Half) (s : State) : Host.Outcome State Fault Refusal :=
  .next (localEvent t (carrierFalls l h) s)

/-- LANE_FREE (R122). -/
def execLaneFree (t : Time) (l : Lane) (s : State) : Host.Outcome State Fault Refusal := .next (event t (laneTurnsFree l) s)

/-- QUARANTINE_END (R127). -/
def execQuarantineEnd (t : Time) (l : Lane) (s : State) : Host.Outcome State Fault Refusal :=
  .next (event t (endQuarantine l) s)

/-- GENERATOR_DONE (R130, R131). -/
def execGeneratorDone (t : Time) (e : EngineId) (s : State) : Host.Outcome State Fault Refusal :=
  .next (localEvent t (generatorEnds e) s)

/-- SETTLE_END (R132). -/
def execSettleEnd (t : Time) (e : EngineId) (s : State) : Host.Outcome State Fault Refusal :=
  .next (localEvent t (settleEnds e) s)

/-- PROBE_WORD_RECEIVED: a word, or bit clocks of one that is not whole (R132 to R136; log 8). -/
def execProbeWordReceived (t : Time) (w : LineIn) (s : State) : Host.Outcome State Fault Refusal :=
  .next (event t (lineArrives w) s)

/-- STEADY_REACHED: the word with which the steady count reaches 16 (R133; log 6). -/
def execSteadyReached (t : Time) (w : WordIn) (s : State) : Host.Outcome State Fault Refusal :=
  .next (event t (wordArrives w) s)

/-- NOSYNC: the word with which the restart count reaches 8 (R133; log 6). -/
def execNosync (t : Time) (w : WordIn) (s : State) : Host.Outcome State Fault Refusal := .next (event t (wordArrives w) s)

/-- STUCK: the word with which the identical run reaches 7 (R135; log 6). -/
def execStuck (t : Time) (w : WordIn) (s : State) : Host.Outcome State Fault Refusal := .next (event t (wordArrives w) s)

/-- CHECKER_GAP_RESET (R133, R134). -/
def execCheckerGapReset (t : Time) (e : EngineId) (s : State) : Host.Outcome State Fault Refusal :=
  .next (localEvent t (checkerGapResets e) s)

/-- CHECK_COMPLETE: the last word of a probe's check (R134, R137; log 6). -/
def execCheckComplete (t : Time) (w : WordIn) (s : State) : Host.Outcome State Fault Refusal :=
  .next (event t (wordArrives w) s)

/-- PROBE_TIMEOUT (R137). -/
def execProbeTimeout (t : Time) (e : EngineId) (s : State) : Host.Outcome State Fault Refusal :=
  .next (event t (probeTimesOut e) s)

/-- LANE_LOSS (R139). -/
def execLaneLoss (t : Time) (l : Lane) (s : State) : Host.Outcome State Fault Refusal := .next (event t (loseLane l) s)

/-- TEST_GENERATION_END (R181, R183). -/
def execTestGenerationEnd (t : Time) (s : State) : Host.Outcome State Fault Refusal := .next (event t generationEnds s)

/-- TEST_CHECK_COMPLETE: the last word of a lane test's check (R182; log 6). -/
def execTestCheckComplete (t : Time) (w : WordIn) (s : State) : Host.Outcome State Fault Refusal :=
  .next (event t (wordArrives w) s)

/-- TEST_TIMEOUT (R182). -/
def execTestTimeout (t : Time) (s : State) : Host.Outcome State Fault Refusal := .next (event t testTimesOut s)

end Sys2Proof.Machine
end

