-- ==== Sys2Proof/Machine/ModuleCommands.lean ====
section
/-! DEFINITION. The commands of the module links and of the modules' times (06). -/

namespace Sys2Proof.Machine

/-! ## The link (6.1) -/

/-- LINK_MESSAGE_DISCARDED: the octets heard before a message, which the hunting receiver discards, and the octets of the
message, which is to be discarded. They are one stream (R99). -/
def execLinkMessageDiscarded (t : Time) (m : Mod) (hunted message : List LinkOctet) (s : State) :
    Host.Outcome State Fault Refusal :=
  .next (event t (linkStream m (hunted ++ message)) s)

/-- LINK_MESSAGE_TIMEOUT: octets of the link that stop before their message is complete (R99; log 6). -/
def execLinkMessageTimeout (t : Time) (m : Mod) (octets : List LinkOctet) (s : State) : Host.Outcome State Fault Refusal :=
  .next (event t (linkStream m octets) s)

/-! ## Reports -/

/-- READY (R105, R106). -/
def execReady (t : Time) (m : Mod) (s : State) : Host.Outcome State Fault Refusal :=
  .next (event t (onReport m (readyReport m)) s)

/-- SCAN_LIST (R107). -/
def execScanList (t : Time) (m : Mod) (entries : List ScanEntry) (s : State) : Host.Outcome State Fault Refusal :=
  .next (event t (onReport m (scanListReport m entries)) s)

/-- SELECTED; result 0 is ok (R110, R115). -/
def execSelected (t : Time) (m : Mod) (code : BitVec 24) (result : Octet) (s : State) :
    Host.Outcome State Fault Refusal :=
  .next (event t (onReport m (selectEnds m code.toNat (result == 0))) s)

/-- ACCEPTED (R116). -/
def execAccepted (t : Time) (m : Mod) (s : State) : Host.Outcome State Fault Refusal :=
  .next (event t (onReport m (acceptedReport m)) s)

/-- REJECTED (R116). -/
def execRejected (t : Time) (m : Mod) (s : State) : Host.Outcome State Fault Refusal :=
  .next (event t (onReport m (rejectedReport m)) s)

/-- RINGING (R116, R86). -/
def execRinging (t : Time) (m : Mod) (s : State) : Host.Outcome State Fault Refusal :=
  .next (event t (onReport m (ringingReport m)) s)

/-- ANSWERED (R116, R86, R91). -/
def execAnswered (t : Time) (m : Mod) (s : State) : Host.Outcome State Fault Refusal :=
  .next (event t (onReport m (answeredReport m)) s)

/-- ENDED (R116, R117, R89). -/
def execEnded (t : Time) (m : Mod) (reason : Octet) (s : State) : Host.Outcome State Fault Refusal :=
  .next (event t (onReport m (endedReport m reason)) s)

/-- ABORTED (R114). -/
def execAborted (t : Time) (m : Mod) (s : State) : Host.Outcome State Fault Refusal :=
  .next (event t (onReport m (abortedReport m)) s)

/-- QUALITY (R112). -/
def execQuality (t : Time) (m : Mod) (q : Octet) (s : State) : Host.Outcome State Fault Refusal :=
  .next (event t (onReport m (qualityReport m q)) s)

/-- FAULT (R105). -/
def execFault (t : Time) (m : Mod) (s : State) : Host.Outcome State Fault Refusal :=
  .next (event t (onReport m (powerCycle m)) s)

/-! ## Times -/

/-- SCAN_TIMEOUT (R104). -/
def execScanTimeout (t : Time) (m : Mod) (s : State) : Host.Outcome State Fault Refusal :=
  .next (event t (orderTimesOut m .scan (scanTimesOut m)) s)

/-- SELECT_TIMEOUT (R104, R110, R115). -/
def execSelectTimeout (t : Time) (m : Mod) (s : State) : Host.Outcome State Fault Refusal :=
  .next (event t (orderTimesOut m .select (selectTimesOut m)) s)

/-- DIAL_TIMEOUT (R104). -/
def execDialTimeout (t : Time) (m : Mod) (s : State) : Host.Outcome State Fault Refusal :=
  .next (event t (orderTimesOut m .dial (orderHangup m)) s)

/-- HANGUP_TIMEOUT: a power-cycle whatever the count (R104, R105). -/
def execHangupTimeout (t : Time) (m : Mod) (s : State) : Host.Outcome State Fault Refusal :=
  .next (event t (orderTimesOut m .hangup (powerCycle m)) s)

/-- ABORT_TIMEOUT (R104, R114). -/
def execAbortTimeout (t : Time) (m : Mod) (s : State) : Host.Outcome State Fault Refusal :=
  .next (event t (orderTimesOut m .abort (abortEnds m)) s)

/-- POWER_ON_TIME (R105). -/
def execPowerOnTime (t : Time) (m : Mod) (s : State) : Host.Outcome State Fault Refusal := .next (event t (switchOn m) s)

/-- POWERING_DEADLINE (R106). -/
def execPoweringDeadline (t : Time) (m : Mod) (s : State) : Host.Outcome State Fault Refusal :=
  .next (event t (poweringExpires m) s)

/-- RESCAN_DUE (R108). -/
def execRescanDue (t : Time) (m : Mod) (s : State) : Host.Outcome State Fault Refusal :=
  .next (event t (rescanStarts m) s)

/-- REFRESH_DUE (R108). -/
def execRefreshDue (t : Time) (m : Mod) (s : State) : Host.Outcome State Fault Refusal :=
  .next (event t (refreshCheck m) s)

/-- PROGRESS_DEADLINE (R116). -/
def execProgressDeadline (t : Time) (m : Mod) (s : State) : Host.Outcome State Fault Refusal :=
  .next (event t (progressExpires m) s)

/-- PENALTY_END (R111). -/
def execPenaltyEnd (t : Time) (m : Mod) (code : Code) (s : State) : Host.Outcome State Fault Refusal :=
  .next (event t (penaltyOver m code) s)

end Sys2Proof.Machine
end

