-- ==== Sys2Proof/Machine/OriginCommands.lean ====
section
/-! DEFINITION. The commands of the origin record's deadlines (03). -/

namespace Sys2Proof.Machine

/-- RETRY_TIME (R36). -/
def execRetryTime (t : Time) (s : State) : Host.Outcome State Fault Refusal := .next (event t retryReached s)

/-- ANSWER_DEADLINE (R38, R50). -/
def execAnswerDeadline (t : Time) (s : State) : Host.Outcome State Fault Refusal := .next (event t answerReached s)

/-- SILENCE_DEADLINE (R40). -/
def execSilenceDeadline (t : Time) (s : State) : Host.Outcome State Fault Refusal := .next (event t silenceReached s)

/-- REGRANT_WAIT (R43, R51). -/
def execRegrantWait (t : Time) (s : State) : Host.Outcome State Fault Refusal := .next (event t regrantReached s)

/-- SEARCH_DEADLINE (R53). -/
def execSearchDeadline (t : Time) (s : State) : Host.Outcome State Fault Refusal := .next (event t searchReached s)

/-- FAILED_UNTIL (R54). -/
def execFailedUntil (t : Time) (s : State) : Host.Outcome State Fault Refusal := .next (localEvent t failedReached s)

/-- AVOID_ENTRY_LEAVE (R32). -/
def execAvoidEntryLeave (t : Time) (station : Station) (s : State) : Host.Outcome State Fault Refusal :=
  .next (localEvent t (leaveAvoid station) s)

end Sys2Proof.Machine
end

