-- ==== Sys2Proof/Machine/PanelCommands.lean ====
section
/-! DEFINITION. The commands of the Carriage Switch's times, the Caller Panel and the Supply Monitor (08, 09). -/

namespace Sys2Proof.Machine

/-! ## The switch (08) -/

/-- HOLD_UNTIL_END (R144). -/
def execHoldUntilEnd (t : Time) (d : Dest) (s : State) : Host.Outcome State Fault Refusal :=
  .next (localEvent t (endHold d) s)

/-- PROMPT_PLAY_END (R147). -/
def execPromptPlayEnd (t : Time) (p : PlayerId) (s : State) : Host.Outcome State Fault Refusal :=
  .next (localEvent t (playEnds p) s)

/-- PROMPT_GAP_END (R147). -/
def execPromptGapEnd (t : Time) (p : PlayerId) (s : State) : Host.Outcome State Fault Refusal :=
  .next (localEvent t (playGapEnds p) s)

/-- IDENT_TONE_END (R151). -/
def execIdentToneEnd (t : Time) (s : State) : Host.Outcome State Fault Refusal := .next (localEvent t toneEnds s)

/-- IDENT_GAP_END (R151). -/
def execIdentGapEnd (t : Time) (s : State) : Host.Outcome State Fault Refusal := .next (localEvent t toneGapEnds s)

/-! ## The button (9.1) -/

/-- R154: a press reaches the origin record and the Service Responder (R183). -/
def pressTaken (s : State) : State := endTest .aborted (originPress s)

/-- R153, R154, R175: a sample of the button, when one is due (log 44). -/
def sampleButton (pressed : Bool) (s : State) : State :=
  if s.button.sampleDue s.now then
    let press := s.button.pressedBy pressed s.now
    let s := { s with button := s.button.sample pressed s.now }
    if press then pressTaken s else s
  else s

/-- BUTTON_SAMPLE (R153). -/
def execButtonSample (t : Time) (pressed : Bool) (s : State) : Host.Outcome State Fault Refusal :=
  .next (event t (sampleButton pressed) s)

/-- BUTTON_PRESS: the third pressed sample (R153, R154; log 6). -/
def execButtonPress (t : Time) (s : State) : Host.Outcome State Fault Refusal := .next (event t (sampleButton true) s)

/-- BUTTON_RELEASE: the third released sample (R153; log 6). -/
def execButtonRelease (t : Time) (s : State) : Host.Outcome State Fault Refusal := .next (event t (sampleButton false) s)

/-! ## The lamp (9.2) -/

/-- R156, R157: a period of the running pattern ends: it is counted, its tick is given, then the pattern goes on or changes. -/
def periodEnds (s : State) : State :=
  if periodOver s then
    let tick := tickDue s
    let s := { s with lamp := s.lamp.countPeriod }
    let s := if tick then originTick s else s
    { s with lamp := s.lamp.nextPeriod s.now }
  else s

/-- LAMP_ON_TIME_END (R156). -/
def execLampOnTimeEnd (t : Time) (s : State) : Host.Outcome State Fault Refusal := .next (localEvent t lampTurnsOff s)

/-- LAMP_PERIOD_END (R156, R157). -/
def execLampPeriodEnd (t : Time) (s : State) : Host.Outcome State Fault Refusal := .next (localEvent t periodEnds s)

/-- PERIOD_TICK: the end of the eighth period of SEEK (R157, R55; log 6). -/
def execPeriodTick (t : Time) (s : State) : Host.Outcome State Fault Refusal := .next (localEvent t periodEnds s)

/-! ## The supply (9.3) -/

/-- R159, R160, R175: a sample of the supply, when one is due (log 44); on leaving LOW the refresh of each module is checked. -/
def supplyTaken (mv : Nat) (s : State) : State :=
  if s.supply.sampleDue s.now then
    let low := s.supply.state == .low
    let s := sampleSupply mv s
    if low && s.supply.state != .low then refreshCheck .b (refreshCheck .a s) else s
  else s

/-- SUPPLY_SAMPLE (R159). -/
def execSupplySample (t : Time) (millivolts : Nat) (s : State) : Host.Outcome State Fault Refusal :=
  .next (event t (supplyTaken millivolts) s)

/-- SUPPLY_STATE_CHANGE: the third sample of a class (R159, R160; log 6). -/
def execSupplyStateChange (t : Time) (millivolts : Nat) (s : State) : Host.Outcome State Fault Refusal :=
  .next (event t (supplyTaken millivolts) s)

end Sys2Proof.Machine
end

