-- ==== Sys2Proof/Machine/Start.lean ====
section
/-! DEFINITION. The full reset (11): what it leaves while it lasts, and the station at its end. -/

namespace Sys2Proof.Machine

/-- R119: a module position at the end of a full reset. -/
def Module.start (fitted : Bool) (now : Time) : Module :=
  if fitted then
    { Module.absent with fitted := true, state := .powering, power := true, poweredAt := now,
                         poweringDeadline := some (now + poweringTime) }
  else Module.absent

/-- R174: the station at the end of a full reset with these strap pins: every block in its initial state. -/
def afterFullReset (pins : Straps) (now : Time) : State :=
  startSchedule
    { State.reset with
      now := now, straps := pins, modules := { a := Module.start pins.modA now, b := Module.start pins.modB now },
      lanes := PerLane.all (LaneEntry.reset now),
      button := ButtonFilter.reset now, lamp := Lamp.start (if pins.station = 0 then .fault else .dark) now,
      supply := SupplyMonitor.reset now, band := Band.reset now }

/-- R175: the end of the 50 ms that a power-on holds the full reset. A reset by the pin adds none, and leaves one that runs. DESIGN
CHOICE (log 5): another power-on inside a full reset begins the 50 ms again. -/
def holdOf (cause : ResetCause) (now : Time) (s : State) : Option Time :=
  match cause with
  | .powerOn => some (now + powerOnTime)
  | .pin => if s.inReset then s.powerOnHold else none

/-- R175, R176: the station while a full reset lasts: every activity has ended, every line is at rest, no module has power.
The latched straps are those of the last reset until it ends (log 5). The commands that wait are kept. -/
def duringFullReset (t : Time) (cause : ResetCause) (s : State) : State :=
  let now := max s.now t
  { State.reset with
    now := now, inReset := true, powerOnHold := holdOf cause now s, straps := s.straps, lanes := PerLane.all (LaneEntry.reset now),
    button := ButtonFilter.reset now, lamp := Lamp.start .dark now, supply := SupplyMonitor.reset now,
    band := Band.reset now, freeTick := s.freeTick, pending := s.pending }

/-- R174, R175: the full reset ends, not before the 50 ms of a power-on. Without one under way nothing happens. -/
def fullResetEnds (pins : Straps) (t : Time) (s : State) : State :=
  if s.inReset && passed s.powerOnHold (max s.now t) then
    { afterFullReset pins (max s.now t) with freeTick := s.freeTick, pending := s.pending }
  else { s with now := max s.now t, out := [], notices := [] }

end Sys2Proof.Machine
end

