-- ==== Sys2Proof/Machine/StartCommands.lean ====
section
/-! DEFINITION. The commands of the full reset and of the own offers and the Offer Table's ages (11, 01). -/

namespace Sys2Proof.Machine

/-- FULL_RESET: the full reset begins (R175, R176). -/
def execFullReset (e : ResetEvent) (s : State) : Host.Outcome State Fault Refusal :=
  .next (duringFullReset e.time e.cause s)

/-- FULL_RESET_END: the straps are latched and every block takes its initial state (R174). -/
def execFullResetEnd (t : Time) (pins : Straps) (s : State) : Host.Outcome State Fault Refusal :=
  .next (fullResetEnds pins t s)

/-- OFFER_FIRST_DUE (R6). -/
def execOfferFirstDue (t : Time) (s : State) : Host.Outcome State Fault Refusal := .next (localEvent t firstOffer s)

/-- OFFER_PERIODIC_DUE (R7, R9). -/
def execOfferPeriodicDue (t : Time) (s : State) : Host.Outcome State Fault Refusal :=
  .next (localEvent t periodicOffer s)

/-- CHANGE_DEADLINE (R8, R9). -/
def execChangeDeadline (t : Time) (s : State) : Host.Outcome State Fault Refusal := .next (localEvent t changeOffer s)

/-- OFFER_SPACING_END (R9, R10). -/
def execOfferSpacingEnd (t : Time) (s : State) : Host.Outcome State Fault Refusal := .next (localEvent t spacingEnds s)

/-- OFFER_ENTRY_EXPIRY (R14). -/
def execOfferEntryExpiry (t : Time) (station : Station) (s : State) : Host.Outcome State Fault Refusal :=
  .next (localEvent t (expireEntry station) s)

end Sys2Proof.Machine
end

