-- ==== Sys2Proof/Machine/Dispatch.lean ====
section
/-! DEFINITION. The meaning of each command: one arm for each constructor of `Instr`, each a direct call. -/

namespace Sys2Proof.Machine

/-- A command's effect on everything but the queue of waiting commands. -/
def exec (i : Instr) (s : State) : Host.Outcome State Fault Refusal :=
  match i with
  | .fullReset e => Sys2Proof.Machine.execFullReset e s
  | .fullResetEnd t pins => Sys2Proof.Machine.execFullResetEnd t pins s
  | .offerFirstDue t => Sys2Proof.Machine.execOfferFirstDue t s
  | .offerPeriodicDue t => Sys2Proof.Machine.execOfferPeriodicDue t s
  | .changeDeadline t => Sys2Proof.Machine.execChangeDeadline t s
  | .offerSpacingEnd t => Sys2Proof.Machine.execOfferSpacingEnd t s
  | .offer t f => Sys2Proof.Machine.execOffer t f s
  | .offerWithdrawal t f => Sys2Proof.Machine.execOfferWithdrawal t f s
  | .offerEntryExpiry t station => Sys2Proof.Machine.execOfferEntryExpiry t station s
  | .buttonSample t pressed => Sys2Proof.Machine.execButtonSample t pressed s
  | .buttonPress t => Sys2Proof.Machine.execButtonPress t s
  | .buttonRelease t => Sys2Proof.Machine.execButtonRelease t s
  | .retryTime t => Sys2Proof.Machine.execRetryTime t s
  | .answerDeadline t => Sys2Proof.Machine.execAnswerDeadline t s
  | .silenceDeadline t => Sys2Proof.Machine.execSilenceDeadline t s
  | .regrantWait t => Sys2Proof.Machine.execRegrantWait t s
  | .searchDeadline t => Sys2Proof.Machine.execSearchDeadline t s
  | .failedUntil t => Sys2Proof.Machine.execFailedUntil t s
  | .grant t f => Sys2Proof.Machine.execGrant t f s
  | .wait t f => Sys2Proof.Machine.execWait t f s
  | .refuse t f => Sys2Proof.Machine.execRefuse t f s
  | .progress t f => Sys2Proof.Machine.execProgress t f s
  | .releaseFromUplink t f => Sys2Proof.Machine.execReleaseFromUplink t f s
  | .releaseFromOrigin t f => Sys2Proof.Machine.execReleaseFromOrigin t f s
  | .releaseRestart t f => Sys2Proof.Machine.execReleaseRestart t f s
  | .claimNew t f => Sys2Proof.Machine.execClaimNew t f s
  | .claimRejoin t f => Sys2Proof.Machine.execClaimRejoin t f s
  | .waitRefresh t origin tag => Sys2Proof.Machine.execWaitRefresh t origin tag s
  | .queueEntryExpiry t origin tag => Sys2Proof.Machine.execQueueEntryExpiry t origin tag s
  | .connect t f => Sys2Proof.Machine.execConnect t f s
  | .connectDeadline t m => Sys2Proof.Machine.execConnectDeadline t m s
  | .ringDeadline t m => Sys2Proof.Machine.execRingDeadline t m s
  | .rejoinDeadline t m => Sys2Proof.Machine.execRejoinDeadline t m s
  | .linkMessageDiscarded t m hunted message => Sys2Proof.Machine.execLinkMessageDiscarded t m hunted message s
  | .linkMessageTimeout t m octets => Sys2Proof.Machine.execLinkMessageTimeout t m octets s
  | .ready t m => Sys2Proof.Machine.execReady t m s
  | .scanList t m entries => Sys2Proof.Machine.execScanList t m entries s
  | .selected t m code result => Sys2Proof.Machine.execSelected t m code result s
  | .accepted t m => Sys2Proof.Machine.execAccepted t m s
  | .rejected t m => Sys2Proof.Machine.execRejected t m s
  | .ringing t m => Sys2Proof.Machine.execRinging t m s
  | .answered t m => Sys2Proof.Machine.execAnswered t m s
  | .ended t m reason => Sys2Proof.Machine.execEnded t m reason s
  | .aborted t m => Sys2Proof.Machine.execAborted t m s
  | .quality t m q => Sys2Proof.Machine.execQuality t m q s
  | .fault t m => Sys2Proof.Machine.execFault t m s
  | .scanTimeout t m => Sys2Proof.Machine.execScanTimeout t m s
  | .selectTimeout t m => Sys2Proof.Machine.execSelectTimeout t m s
  | .dialTimeout t m => Sys2Proof.Machine.execDialTimeout t m s
  | .hangupTimeout t m => Sys2Proof.Machine.execHangupTimeout t m s
  | .abortTimeout t m => Sys2Proof.Machine.execAbortTimeout t m s
  | .powerOnTime t m => Sys2Proof.Machine.execPowerOnTime t m s
  | .poweringDeadline t m => Sys2Proof.Machine.execPoweringDeadline t m s
  | .rescanDue t m => Sys2Proof.Machine.execRescanDue t m s
  | .refreshDue t m => Sys2Proof.Machine.execRefreshDue t m s
  | .progressDeadline t m => Sys2Proof.Machine.execProgressDeadline t m s
  | .penaltyEnd t m code => Sys2Proof.Machine.execPenaltyEnd t m code s
  | .carrierHeard t l h => Sys2Proof.Machine.execCarrierHeard t l h s
  | .carrierNotHeard t l h => Sys2Proof.Machine.execCarrierNotHeard t l h s
  | .laneFree t l => Sys2Proof.Machine.execLaneFree t l s
  | .quarantineEnd t l => Sys2Proof.Machine.execQuarantineEnd t l s
  | .generatorDone t e => Sys2Proof.Machine.execGeneratorDone t e s
  | .settleEnd t e => Sys2Proof.Machine.execSettleEnd t e s
  | .probeWordReceived t w => Sys2Proof.Machine.execProbeWordReceived t w s
  | .steadyReached t w => Sys2Proof.Machine.execSteadyReached t w s
  | .nosync t w => Sys2Proof.Machine.execNosync t w s
  | .stuck t w => Sys2Proof.Machine.execStuck t w s
  | .checkerGapReset t e => Sys2Proof.Machine.execCheckerGapReset t e s
  | .checkComplete t w => Sys2Proof.Machine.execCheckComplete t w s
  | .probeTimeout t e => Sys2Proof.Machine.execProbeTimeout t e s
  | .laneLoss t l => Sys2Proof.Machine.execLaneLoss t l s
  | .holdUntilEnd t d => Sys2Proof.Machine.execHoldUntilEnd t d s
  | .promptPlayEnd t p => Sys2Proof.Machine.execPromptPlayEnd t p s
  | .promptGapEnd t p => Sys2Proof.Machine.execPromptGapEnd t p s
  | .identToneEnd t => Sys2Proof.Machine.execIdentToneEnd t s
  | .identGapEnd t => Sys2Proof.Machine.execIdentGapEnd t s
  | .lampOnTimeEnd t => Sys2Proof.Machine.execLampOnTimeEnd t s
  | .lampPeriodEnd t => Sys2Proof.Machine.execLampPeriodEnd t s
  | .periodTick t => Sys2Proof.Machine.execPeriodTick t s
  | .supplySample t millivolts => Sys2Proof.Machine.execSupplySample t millivolts s
  | .supplyStateChange t millivolts => Sys2Proof.Machine.execSupplyStateChange t millivolts s
  | .bandActivity t => Sys2Proof.Machine.execBandActivity t s
  | .bandQuiet t => Sys2Proof.Machine.execBandQuiet t s
  | .sendStart t => Sys2Proof.Machine.execSendStart t s
  | .frameSent t => Sys2Proof.Machine.execFrameSent t s
  | .collision t => Sys2Proof.Machine.execCollision t s
  | .frameDiscarded t e => Sys2Proof.Machine.execFrameDiscarded t e s
  | .duplicateNumberFrame t => Sys2Proof.Machine.execDuplicateNumberFrame t s
  | .unknownKindFrame t kind f => Sys2Proof.Machine.execUnknownKindFrame t kind f s
  | .reportFrameHeard t f => Sys2Proof.Machine.execReportFrameHeard t f s
  | .statusQueryGeneral t f => Sys2Proof.Machine.execStatusQueryGeneral t f s
  | .statusQueryCounters t f => Sys2Proof.Machine.execStatusQueryCounters t f s
  | .statusQueryModules t f => Sys2Proof.Machine.execStatusQueryModules t f s
  | .statusQueryLastTest t f => Sys2Proof.Machine.execStatusQueryLastTest t f s
  | .testOrderGenerate t f => Sys2Proof.Machine.execTestOrderGenerate t f s
  | .testOrderCheck t f => Sys2Proof.Machine.execTestOrderCheck t f s
  | .testOrderStop t f => Sys2Proof.Machine.execTestOrderStop t f s
  | .testGenerationEnd t => Sys2Proof.Machine.execTestGenerationEnd t s
  | .testCheckComplete t w => Sys2Proof.Machine.execTestCheckComplete t w s
  | .testTimeout t => Sys2Proof.Machine.execTestTimeout t s
  | .restart t f => Sys2Proof.Machine.execRestart t f s
  | .avoidEntryLeave t station => Sys2Proof.Machine.execAvoidEntryLeave t station s

end Sys2Proof.Machine
end

