-- ==== Sys2Proof/Machine/Voice.lean ====
section
/-! DEFINITION. The samples of voice (08; 07, 7.1): what each source delivers at a sample time, what each destination sends, and
the words on the halves that the station drives. Nothing of it is state: the samples pass through (log 45). -/

namespace Sys2Proof.Machine

/-- A sample of a voice stream (08). -/
abbrev Sample := BitVec 16

/-- The time from one sample to the next, 8,000 in a second (08). -/
def sampleTime : Time := 12

/-- What reaches the station at one sample time: the codec's sample, the modules' receive audio, and the words framed on the
halves in this word time, of which this is the first or the second sample. -/
structure VoiceIn where
  mic : Sample
  modRx : PerMod Sample
  wordA : PerLane (Option (BitVec 32))
  wordB : PerLane (Option (BitVec 32))
  second : Bool
  deriving DecidableEq, Repr

/-- The word framed on a half in this word time. -/
def VoiceIn.word (i : VoiceIn) (l : Lane) : Half → Option (BitVec 32)
  | .a => i.wordA.get l
  | .b => i.wordB.get l

/-- A word of two samples, the earlier one first on the line (07, 7.1; 08; bit 0 first on the line, log 8, 45). -/
def wordOf (first second : Sample) : BitVec 32 := second ++ first

/-- A sample of a word: the first, or the second. -/
def sampleOf (w : BitVec 32) (second : Bool) : Sample := if second then w.extractLsb' 16 16 else w.extractLsb' 0 16

/-- R141: the sample of a base source. A word time without a framed word is silent. -/
def sourceSample (i : VoiceIn) : Source → Sample
  | .mic => i.mic
  | .modRx m => i.modRx.get m
  | .laneRx l h =>
    match i.word l h with
    | some w => sampleOf w i.second
    | none => 0
  | .silence => 0

/-! ## Prompts and tones (R147, R151) -/

/-- A prompt's place in the table of 08, 8.3. -/
def promptNumber : Prompt → Nat
  | .connecting => 0
  | .pleaseWait => 1
  | .reconnecting => 2
  | .callFailed => 3
  | .holdLine => 4

/-- The start of the present play at a destination. -/
def playSince (s : State) : Dest → Time
  | .speaker => s.csw.players.s.since
  | .modTx .a => s.csw.players.a.since
  | .modTx .b => s.csw.players.b.since
  | .lane _ => s.now

/-- 8,192 × sin(2π k / 160) without its fraction, for k from 0 to 40: a quarter of a cycle with a peak of one quarter of full
scale, 32,768 (R151; log 45). -/
def sineTable : List Nat :=
  [0, 321, 642, 962, 1281, 1598, 1912, 2223, 2531, 2835, 3134, 3429, 3719, 4002, 4280, 4551, 4815, 5071, 5320, 5560,
   5792, 6015, 6229, 6433, 6627, 6811, 6984, 7147, 7299, 7439, 7568, 7685, 7791, 7884, 7965, 8034, 8091, 8135, 8166,
   8185, 8192]

/-- A sine with a peak of 8,192 at `k` 160ths of a cycle, rounded towards 0 or away from it. The zeros and the peaks are
whole. -/
def sineLevel (k : Nat) (up : Bool) : Int :=
  let h := k % 80
  let i := if h ≤ 40 then h else 80 - h
  let size : Nat := sineTable.getD i 0 + (if up && i != 0 && i != 40 then 1 else 0)
  if k % 160 < 80 then size else -size

/-- R151: sample `n` of the tone of digit `d`, from 0. In one sample the sine moves on by 12 + 3 d of 160 parts of a cycle,
which is 600 + 150 d Hz. A negative sample is in two's complement (log 45). -/
def toneSample (d n : Nat) : Sample :=
  BitVec.ofInt 16 (sineLevel (n * (12 + 3 * d)) (Config.toneRoundsUp (toneHertz d) n))

/-! ## Destinations and halves (R142, R126) -/

/-- R142: the sample a destination sends at the present time. -/
def destSample (s : State) (i : VoiceIn) (d : Dest) : Sample :=
  match destHears s d with
  | .silence => 0
  | .source x => sourceSample i x
  | .prompt p => Config.promptSample (promptNumber p) ((s.now - playSince s d) / sampleTime)
  | .burst => toneSample (s.csw.ident.toneDigit.getD 0) ((s.now - s.csw.ident.since) / sampleTime)

/-- R130, R181: the word of an owner's generator at the present time. -/
def patternWord (s : State) (o : Owner) : BitVec 32 :=
  let g := s.engine (engineOf o)
  let n := (s.now - g.genStart) / wordTime
  match o, s.svc.test with
  | .laneTest, some t => testWord t g.genSeed n
  | _, _ => seedWord g.genSeed n

/-- R126: the word the station puts on a half in the word time whose two samples are sent in `s0` and `s1`; none on a half it
does not drive. -/
def halfWord (s0 s1 : State) (i0 i1 : VoiceIn) (l : Lane) (h : Half) : Option (BitVec 32) :=
  match halfSends s0 l h with
  | .nothing => none
  | .pattern => (s0.lane l).owner.map (patternWord s0)
  | .stream _ => some (wordOf (destSample s0 i0 (.lane l)) (destSample s1 i1 (.lane l)))

end Sys2Proof.Machine
end

