-- ==== Sys2Proof/Safety.lean ====
section
/-! DEFINITION. What counts as a sound state: the bounds and exclusions that the guide promises of the station's records at every
moment. Statements take them as invariants of a step. -/

namespace Sys2Proof.Machine

/-- R168, R169: at most 12 frames in the transmit queue, of which at most two are service frames (and by its type one
OFFER); at station 0 no frame, and none in hand. -/
def Band.fits (own : Station) (b : Band) : Prop :=
  b.size ≤ 12 ∧ b.services.length ≤ 2 ∧ (own = 0 → b.size = 0 ∧ b.hand = none)

/-- R12: at most 30 entries, in rising order of station number, so no two for one station; none for station 0, for a number
above 31, or for the own number. -/
def offerTableOk (own : Station) (t : List OfferEntry) : Prop :=
  t.length ≤ 30 ∧ t.Pairwise (fun x y => x.station < y.station) ∧
    ∀ e ∈ t, 1 ≤ e.station ∧ e.station ≤ 31 ∧ e.station ≠ own

/-- 06, 6.5: at most 8 entries, quality highest first with ties by the lower code, no two of one code. -/
def netTableOk (t : List Net) : Prop :=
  t.length ≤ 8 ∧ t.Pairwise (fun x y => netBefore x y = true) ∧ (t.map Net.code).Nodup

/-- R32: at most 4 entries, no two for one station. -/
def avoidOk (l : List AvoidEntry) : Prop := l.length ≤ 4 ∧ (l.map AvoidEntry.station).Nodup

/-- R136: the clock compare lies in −127..+127. -/
def Engine.compareOk (x : Engine) : Prop := -127 ≤ x.compare ∧ x.compare ≤ 127

/-- 07, 7.1; R129: a lane that is OWN has its owner, and no lane is OWN at station 0. -/
def LaneEntry.ownedOk (own : Station) (x : LaneEntry) : Prop := x.occupancy = .own → x.owner.isSome = true ∧ own ≠ 0

/-- The bounds together, part by part. -/
structure State.Sound (s : State) : Prop where
  queue : s.band.fits s.own
  claims : s.claims.length ≤ 6
  avoid : avoidOk s.coc.avoid
  offers : offerTableOk s.own s.offerTable
  nets : ∀ m, netTableOk (s.modules.get m).table
  compare : ∀ e, (s.engines.get e).compareOk
  owned : ∀ l, (s.lanes.get l).ownedOk s.own

/-- The station has no waiting claim, and its origin record waits for no candidate: a module or a lane that comes free then
brings about nothing further in the same event (R36, R73). -/
abbrev State.calm (s : State) : Prop := s.claims = [] ∧ s.waitsForCandidate = false

/-- The station's receiver is at this frame: it began it, and the frame has at most 40 payload octets (R163). -/
abbrev State.receives (s : State) (f : Rx) : Prop := s.band.receiving = true ∧ f.payload.length ≤ 40

/-- The station takes a frame addressed to it: R170 finds no other place for it, and its sender is a peer. -/
abbrev State.hears (s : State) (f : Rx) : Prop :=
  f.target ≠ 0 ∧ f.target.toNat = s.own ∧ f.sender ≠ 0 ∧ f.sender.toNat ≤ 31 ∧ f.sender.toNat ≠ s.own ∧ s.receives f

/-- The station takes an OFFER: one of a peer, for every station (R11, R170). -/
abbrev State.hearsOffer (s : State) (f : Rx) : Prop :=
  f.target = 0 ∧ f.sender ≠ 0 ∧ f.sender.toNat ≤ 31 ∧ f.sender.toNat ≠ s.own ∧ s.receives f

/-- No ranking finds a candidate: no LOCAL path and no Offer Table entry (R18, R19). -/
abbrev State.noCandidate (s : State) : Prop := localIsCandidate s = false ∧ s.offerTable = []

/-- The origin record is on a PEER path to a station, without a lane. -/
def Origin.onPeer (c : Origin) (st : Station) : Prop :=
  ∃ m, c.path = some { kind := .peer, station := st, module := m, lane := none }

/-- The origin record is on a PEER path to a station and holds a lane. -/
def Origin.onLane (c : Origin) (st : Station) (l : Lane) : Prop :=
  ∃ m, c.path = some { kind := .peer, station := st, module := m, lane := some l }

/-- A summary in the range the guide gives its fields (01, 1.1, 1.4). -/
def Summary.inRange (x : Summary) : Prop :=
  (∀ c, x.best = some c → c ≤ 999999) ∧ x.quality ≤ 63 ∧ x.usable ≤ 8

/-- The place of a lane in the search of a station, counted from 0 (R123). -/
def searchPlace (own : Station) (l : Lane) : Nat := (laneNumber l - 1 + 6 - (own - 1) % 6) % 6

/-- The bits of a received word that differ from what the predictor of a checker expects. -/
def Engine.wordErrors (x : Engine) (i : WordIn) : Nat :=
  onesBelow 32 ((nextWord (freeRun i.gapBits x.predictor)).1 ^^^ i.word)

end Sys2Proof.Machine
end

