-- ==== Sys2Proof/Certificates/Slice0/Obligations.lean ====
section
/-! DEFINITION. The statements for the provers, by block of the guide. In each, `startEvent t s` is the state in which a command
taken at time `t` begins: the time moved on, no output of an earlier command left (log 1, 32). A command that brings a whole frame
leaves the station's receiver hunting (`hunt`, R163). -/

open Sys2Proof Sys2Proof.Machine

/-! ## The queue, the full reset, and what every command keeps -/

/-- A step runs the front command on the state with the queue's rest; with no command the station idles (log 3). -/
def Obligations.StepRunsFrontCommand : Prop :=
  (∀ (c : Instr) (s : State), step { s with pending := c :: s.pending } = exec c s) ∧
    ∀ s : State, s.pending = [] → step s = .next s

/-- Every command answers a next state and leaves the waiting commands. It never moves the time back (log 1); the straps
change only when a full reset ends (R174), and the duplicate-number fault stays set until the next full reset (R172). -/
def Obligations.EveryCommandAnswersNext : Prop :=
  ∀ (c : Instr) (s : State), ∃ u, exec c s = .next u ∧ u.pending = s.pending ∧ s.now ≤ u.now ∧
    ((∀ t p, c ≠ .fullResetEnd t p) → u.straps = s.straps) ∧
    ((∀ e, c ≠ .fullReset e) → (∀ t p, c ≠ .fullResetEnd t p) → s.band.dupFault = true → u.band.dupFault = true)

/-- R175: a full reset ends every activity: nothing is powered, driven, lit or heard. A power-on holds it for 50 ms; a reset by
the pin adds none. That a power-on inside a full reset begins the 50 ms again is the model's choice (log 5). That every record, table and queue stands at its initial value, no module counting as fitted, and that the
straps stay is the model's choice (log 5, 19, 44). -/
def Obligations.FullResetEndsEverything : Prop :=
  ∀ (t : Time) (k : ResetCause) (s : State), ∃ u, exec (.fullReset { time := t, cause := k }) s = .next u ∧ u.inReset = true ∧
    u.now = max s.now t ∧ (k = .powerOn → u.powerOnHold = some (max s.now t + ms 50)) ∧
    (k = .pin → s.inReset = false → u.powerOnHold = none) ∧
    (k = .pin → s.inReset = true → u.powerOnHold = s.powerOnHold) ∧
    u.straps = s.straps ∧ u.pending = s.pending ∧ u.coc = Origin.reset ∧ u.claims = [] ∧ u.offerTable = [] ∧
    (∀ m, u.car m = none ∧ powerLine u m = false) ∧ (∀ l h, halfSends u l h = .nothing) ∧ lampLine u = false ∧
    bandLine u = true ∧
    (∀ d, destHears u d = .silence) ∧ u.band.size = 0 ∧ u.band.hand = none ∧ u.counters = Counters.zero ∧
    u.svc = { record := ResultRecord.none, test := none, lastRestart := .none } ∧ u.sched = OfferSchedule.cleared ∧
    (∀ m, u.mod m = Module.absent) ∧ u.csw = Switch.reset ∧
    (∀ l, (u.lane l).occupancy = .busy ∧ (u.lane l).owner = none ∧ (u.lane l).carrierA = false ∧
      (u.lane l).carrierB = false ∧ (u.lane l).quietSince = some u.now ∧ (u.lane l).quarantineUntil = none ∧
      (u.lane l).supervised = false ∧ (u.lane l).gapStart = none) ∧
    (∀ e, (u.engine e).user = none ∧ (u.engine e).lane = none ∧ (u.engine e).generator = .idle ∧
      (u.engine e).checker = .idle ∧ (u.engine e).steady = 0 ∧ (u.engine e).restarts = 0 ∧ (u.engine e).compared = 0 ∧
      (u.engine e).errors = 0 ∧ (u.engine e).run = 0 ∧ (u.engine e).compare = 0) ∧
    u.button = { pressed := false, disagree := 0, sampledAt := u.now } ∧
    u.supply = { state := .normal, candidate := none, agree := 0, sampledAt := u.now } ∧ u.lamp.running = .dark ∧
    u.band.quietSince = some u.now ∧ u.band.startEdge = none ∧ u.band.receiving = false ∧ u.band.dupFault = false ∧
    u.band.dupFrames = 0 ∧ u.out = [] ∧ u.notices = []

/-- R175: while a full reset lasts, no other command does anything; only the time moves (log 5). -/
def Obligations.NothingHappensDuringFullReset : Prop :=
  ∀ (c : Instr) (s : State), s.inReset = true → (∀ e, c ≠ .fullReset e) → (∀ t p, c ≠ .fullResetEnd t p) →
    ∃ t, exec c s = .next (startEvent t s)

/-- R174, R175, with R5, R57, R119, R140, R158, R161, R168 and 4.9, 5.5, 8.5, 9.1, 12.2, 12.3: the end of a full reset latches
the straps and starts every block, not before the 50 ms of a power-on. The waiting commands stay (log 5); the starts of an idle
player and of the burst inside the switch are the model's (log 19), and so are the times of the first samples (log 44). -/
def Obligations.FullResetEndStartsTheStation : Prop :=
  (∀ (t d : Time) (pins : Straps) (s : State), s.inReset = true → s.powerOnHold = some d → max s.now t < d →
    exec (.fullResetEnd t pins) s = .next (startEvent t s)) ∧
  ∀ (t : Time) (pins : Straps) (s : State), s.inReset = true → (∀ d, s.powerOnHold = some d → d ≤ max s.now t) →
    ∃ u, exec (.fullResetEnd t pins) s = .next u ∧ u.powerOnHold = none ∧
    u.inReset = false ∧ u.straps = pins ∧ u.now = max s.now t ∧ u.pending = s.pending ∧ u.coc = Origin.reset ∧
    u.claims = [] ∧ u.offerTable = [] ∧ (∀ m, u.car m = none) ∧
    (∀ m fitted, (m = .a → fitted = pins.modA) → (m = .b → fitted = pins.modB) →
      (fitted = true → (u.mod m).fitted = true ∧ (u.mod m).state = .powering ∧ (u.mod m).power = true ∧
        (u.mod m).poweredAt = u.now ∧ (u.mod m).poweringDeadline = some (u.now + ms 15000) ∧ (u.mod m).table = [] ∧
        (u.mod m).link = false ∧
        (u.mod m).selected = none ∧ (u.mod m).inFlight = none ∧ (u.mod m).pendingOrder = none ∧
        (u.mod m).timeouts = 0 ∧ (u.mod m).powerCycles = 0 ∧ (u.mod m).lastScan = none ∧ (u.mod m).rescanDue = none ∧
        (u.mod m).progressDeadline = none ∧ (u.mod m).linkErrors = 0 ∧ (u.mod m).callInProgress = false) ∧
      (fitted = false → u.mod m = Module.absent)) ∧
    (∀ l, (u.lane l).occupancy = .busy ∧ (u.lane l).owner = none ∧ (u.lane l).quarantineUntil = none ∧
      (u.lane l).quietSince = some u.now ∧ (u.lane l).carrierA = false ∧ (u.lane l).carrierB = false ∧
      (u.lane l).supervised = false ∧ (u.lane l).gapStart = none) ∧
    (∀ e, (u.engine e).user = none ∧ (u.engine e).lane = none ∧ (u.engine e).generator = .idle ∧
      (u.engine e).checker = .idle ∧ (u.engine e).steady = 0 ∧ (u.engine e).restarts = 0 ∧ (u.engine e).compared = 0 ∧
      (u.engine e).errors = 0 ∧ (u.engine e).run = 0 ∧ (u.engine e).compare = 0) ∧
    u.supply = { state := .normal, candidate := none, agree := 0, sampledAt := u.now } ∧
    u.lamp.running = (if pins.station = 0 then .fault else .dark) ∧
    u.button = { pressed := false, disagree := 0, sampledAt := u.now } ∧ u.csw = Switch.reset ∧
    u.band.size = 0 ∧ u.band.hand = none ∧ u.band.quietSince = some u.now ∧ u.band.startEdge = none ∧
    u.band.receiving = false ∧ u.band.dupFault = false ∧ u.band.dupFrames = 0 ∧ u.counters = Counters.zero ∧
    u.svc = { record := ResultRecord.none, test := none, lastRestart := .none } ∧
    (u.sched.phase =
      if pins.station = 0 ∨ pins.offer = false ∨ (pins.modA = false ∧ pins.modB = false) then .silent else .starting) ∧
    (u.sched.phase = .starting → u.sched.firstDue = some (u.now + ms (500 + 20 * pins.station.toNat)))

/-- The bounds of `State.Sound` hold right after reset, for the straps of log 4. -/
def Obligations.ResetStateIsSound : Prop := State.reset.Sound

/-- R12, R32, R58, R129, R136, R168, R169 and 06, 6.5: every step, from any state, keeps the bounds of `State.Sound`. -/
def Obligations.EveryStepKeepsSoundness : Prop := ∀ s u : State, s.Sound → step s = .next u → u.Sound

/-! ## Encodings: the frame check, the OFFER payload, the pattern -/

/-- R162, R163: a frame as it is sent, of any kind and any content of at most 40 octets, passes the check. While the station is
SENDING, the band carries its octets in a continuous run of bit times: a dominant start bit, the data bits, bit 7 first and 0
dominant, and a recessive stop bit. Before and after, the station leaves the band recessive. -/
def Obligations.SentFramesPassTheirCheck : Prop :=
  (∀ (sender : Octet) (f : Frame), f.payload.length ≤ 40 →
    checkGood (frameOctets sender f) = true ∧ (frameOctets sender f).length = f.payload.length + 6) ∧
  (∀ s : State, (∀ h, s.band.hand = some h → h.line = none) → bandLine s = true) ∧
  ∀ (s : State) (h : Hand) (f : Frame), s.band.hand = some h → h.line = some f →
    (∀ (j k : Nat) (o : Octet), (frameOctets (oct s.own) f)[j]? = some o →
      s.band.sendSince + (10 * j + k) * 5 ≤ s.now → s.now < s.band.sendSince + (10 * j + k + 1) * 5 →
      (k = 0 → bandLine s = false) ∧ (1 ≤ k → k ≤ 8 → bandLine s = o.getLsbD (8 - k)) ∧ (k = 9 → bandLine s = true)) ∧
    (s.band.sendSince + (f.payload.length + 6) * 50 ≤ s.now → bandLine s = true)

/-- 01, 1.3 and R11: an own offer content in range, sent as an OFFER payload, reads back field for field. -/
def Obligations.OfferPayloadReadsBack : Prop :=
  ∀ c : Content, c.depth ≤ 6 → (∀ x, c.a = some x → x.inRange) → (∀ x, c.b = some x → x.inRange) →
    readOffer (offerFrame c).payload =
      if c.offering = true ∧ c.supply ≠ .low then .entry c.supply c.depth c.a c.b else .withdrawal

/-- R130, R132: no seed is zero and no register becomes zero; fifteen bits of a word fix the register, so a predictor loaded
from one true word expects the next one. -/
def Obligations.PatternIsFollowed : Prop :=
  (∀ station tag : Nat, seedOf station tag ≠ 0) ∧ (∀ (n : Nat) (r : BitVec 15), r ≠ 0 → freeRun n r ≠ 0) ∧
    ∀ r x : BitVec 15, freeRun 17 (loadBits 15 0 (nextWord r).1 x) = (nextWord r).2 ∧ (nextWord r).2 = freeRun 32 r

/-! ## Ranking and lane choice -/

/-- R27 -/
def Obligations.RawScoreFormula : Prop :=
  ∀ c : Candidate,
    c.raw = 12 * (c.q : Int) + 60 * c.f + 200 * c.l - 40 * c.d - 8 * c.h - 20 * max 0 ((c.a : Int) - 2) - 150 * c.r
      - 300 * c.v

/-- R17 to R26, R28, R29: a PEER record stands in the list for each Offer Table entry that R19 lets in, never at station 0, and the
LOCAL record when R18 allows it, each with the inputs of R21 to R26; a sound table gives each station one record. The score is the
raw score clamped into 0..1,000; the list is in the order of score, distance and station number; the outcome is its first, so no
candidate scores more. That an entry of age 10,000 ms whose expiry is still to be taken is left out is the model's reading
(log 25). -/
def Obligations.RankingOutcomeIsBest : Prop :=
  (∀ c : Candidate, (1000 < c.raw → c.score = 1000) ∧ (c.raw ≤ 0 → c.score = 0) ∧
    (0 < c.raw → c.raw ≤ 1000 → (c.score : Int) = c.raw) ∧ c.score ≤ 1000) ∧
  (∀ s : State, (candidateList s).Perm (candidates s)) ∧
  (∀ s : State, (candidateList s).Pairwise fun x y =>
    y.score < x.score ∨ (x.score = y.score ∧ (x.h < y.h ∨ (x.h = y.h ∧ x.station ≤ y.station)))) ∧
  (∀ s : State, ranking s = (candidateList s).head?) ∧
  (∀ s : State, ranking s = none ↔ candidates s = []) ∧
  (∀ (s : State) (c : Candidate), ranking s = some c → c ∈ candidates s ∧ ∀ d ∈ candidates s, d.score ≤ c.score) ∧
  ∀ (s : State) (c : Candidate),
    let avoided := fun (st : Station) => (s.coc.avoid.any fun k => k.station == st).toNat
    -- PEER: a FREE or a BUSY summary with a usable network
    let free := fun (x : Option Summary) => x.any fun y => y.state == .free && decide (1 ≤ y.usable)
    let busy := fun (x : Option Summary) => x.any fun y => y.state == .busy && decide (1 ≤ y.usable)
    (c.kind = .peer →
      (c ∈ candidates s ↔
        s.own ≠ 0 ∧ ∃ e ∈ s.offerTable, s.now < e.receivedAt + ms 10000 ∧
          let isFree := free e.a || free e.b
          let counts := if isFree then free else busy
          (isFree = true ∨ busy e.a = true ∨ busy e.b = true) ∧ (isFree = true ∨ e.depth ≠ 6) ∧ c.station = e.station ∧
          (∃ x, (e.a = some x ∨ e.b = some x) ∧ counts (some x) = true ∧ c.q = x.quality) ∧
          (∀ x, (e.a = some x ∨ e.b = some x) → counts (some x) = true → x.quality ≤ c.q) ∧
          c.f = (free e.a).toNat + (free e.b).toNat ∧ c.d = e.depth ∧ c.h = ((e.station : Int) - s.own).natAbs ∧
          c.a = (s.now - e.receivedAt) / ms 1000 ∧ c.r = (if e.supply = .reserve then 1 else 0) ∧
          c.v = avoided e.station ∧ c.l = 0)) ∧
    -- LOCAL: a module usable as a path, and one that is free
    let usable := fun (n : Net) => !n.barred && n.penalisedUntil.isNone
    let resting := fun (x : Module) => x.state == .ready || x.state == .refreshing
    let path := fun (x : Module) => x.fitted && (resting x || x.link) && x.table.any usable
    let idle := fun (x : Module) => x.fitted && resting x && !x.link && x.table.any usable
    let best := fun (x : Module) => match x.selected with
      | some code => some code
      | none => (x.table.find? usable).map Net.code
    let quality := fun (x : Module) =>
      ((best x).bind fun code => x.table.find? fun n => n.code == code).elim 0 Net.quality
    let counts := if idle (s.mod .a) || idle (s.mod .b) then idle else path
    (c.kind = .loc →
      (c ∈ candidates s ↔
        (∃ m, path (s.mod m) = true) ∧ c.station = s.own ∧
          (∃ m, counts (s.mod m) = true ∧ c.q = quality (s.mod m)) ∧
          (∀ m, counts (s.mod m) = true → quality (s.mod m) ≤ c.q) ∧
          c.f = (idle (s.mod .a)).toNat + (idle (s.mod .b)).toNat ∧ c.d = s.claims.length ∧ c.h = 0 ∧ c.a = 0 ∧ c.r = 0 ∧
          c.v = avoided s.own ∧ c.l = 1)) ∧
    (offerTableOk s.own s.offerTable →
      ((candidates s).map Candidate.station).Nodup ∧ (candidates s).length ≤ 31)

/-- R123, R129: the choice is the first lane of the search in the mask and free for choosing; station 0 is given none. -/
def Obligations.LaneChoiceIsFirstInSearch : Prop :=
  ∀ (mask : LaneMask) (s : State),
    (∀ l, chooseLane mask s = some l ↔
      s.own ≠ 0 ∧ inMask mask l = true ∧ (s.lane l).freeForChoosing = true ∧
        ∀ k, searchPlace s.own k < searchPlace s.own l → inMask mask k = false ∨ (s.lane k).freeForChoosing = false) ∧
    (chooseLane mask s = none ↔
      s.own = 0 ∨ ∀ l, inMask mask l = false ∨ (s.lane l).freeForChoosing = false)

/-- R120, R128: a lane is in the mask of a CLAIM when it is FREE, without quarantine and without an owner. -/
def Obligations.LaneMaskHoldsTheFreeLanes : Prop :=
  ∀ (s : State) (l : Lane), inMask s.laneMask l = true ↔
    (s.lane l).occupancy = .free ∧ (s.lane l).quarantineUntil = none ∧ (s.lane l).owner = none

/-! ## Own offers and the Offer Table (01) -/

/-- R1, with the flag's place in STATUS-REPORT GENERAL. -/
def Obligations.OfferingFlagConditions : Prop :=
  ∀ s : State,
    (s.offeringFlag = true ↔
      s.straps.offer = true ∧ (s.straps.modA = true ∨ s.straps.modB = true) ∧
        (s.supply.state = .normal ∨ s.supply.state = .reserve) ∧ s.band.dupFault = false) ∧
    (flagsOctet s).getLsbD 2 = s.offeringFlag

/-- R6 to R10: the first, the periodic, the change OFFER, the one that waited for the spacing and the withdrawal owed are
handed over when due and 250 ms apart, with the schedule each leaves. That an OFFER held up by the spacing waits as the kind
that first fell due (`sched.deferred`), and goes out at the spacing's end, is the model's reading (log 11), and that an absent last
hand-over holds up no owed withdrawal is its choice (log 51). -/
def Obligations.OffersGoOutWhenDue : Prop :=
  (∀ (t d : Time) (s : State), s.inReset = false → s.sched.phase = .starting → s.sched.firstDue = some d →
    d ≤ max s.now t →
    exec (.offerFirstDue t) s =
      if s.offeringFlag then
        .next
          { handOver (offerFrame s.content) (startEvent t s) with
            sched :=
              { phase := .active, firstDue := none, periodicDue := some (max s.now t + ms 2000), changeDeadline := none,
                withdrawalOwed := s.sched.withdrawalOwed, lastHandover := some (max s.now t),
                reference := some s.content, deferred := none } }
      else
        .next { startEvent t s with sched := { s.sched with phase := .withdrawn, firstDue := none, withdrawalOwed := false } }) ∧
  (∀ (t d : Time) (s : State), s.inReset = false → s.sched.phase = .active → s.sched.periodicDue = some d →
    d ≤ max s.now t →
    ((∀ x, s.sched.lastHandover = some x → x + ms 250 ≤ max s.now t) →
      exec (.offerPeriodicDue t) s =
        .next
          { handOver (offerFrame s.content) (startEvent t s) with
            sched :=
              { s.sched with
                periodicDue := some (max s.now t + ms 2000), changeDeadline := none, lastHandover := some (max s.now t),
                reference := some s.content, deferred := none } }) ∧
    (∀ x, s.sched.lastHandover = some x → max s.now t < x + ms 250 → s.sched.deferred = none →
      exec (.offerPeriodicDue t) s = .next { startEvent t s with sched := { s.sched with deferred := some .periodic } })) ∧
  (∀ (t d : Time) (s : State), s.inReset = false → s.sched.phase = .active → s.sched.changeDeadline = some d →
    d ≤ max s.now t →
    (contentDiffers s.content s.sched.reference = false →
      exec (.changeDeadline t) s = .next { startEvent t s with sched := { s.sched with changeDeadline := none } }) ∧
    (contentDiffers s.content s.sched.reference = true →
      (∀ x, s.sched.lastHandover = some x → x + ms 250 ≤ max s.now t) →
      exec (.changeDeadline t) s =
        .next
          { handOver (offerFrame s.content) (startEvent t s) with
            sched :=
              { s.sched with
                periodicDue := some (max s.now t + ms 2000), changeDeadline := none, lastHandover := some (max s.now t),
                reference := some s.content, deferred := none } }) ∧
    (∀ x, contentDiffers s.content s.sched.reference = true → s.sched.lastHandover = some x →
      max s.now t < x + ms 250 → s.sched.deferred = none →
      exec (.changeDeadline t) s =
        .next { startEvent t s with sched := { s.sched with changeDeadline := none, deferred := some .change } })) ∧
  (∀ (t : Time) (s : State), s.inReset = false →
    (∀ x, s.sched.lastHandover = some x → x + ms 250 ≤ max s.now t) →
    (s.sched.phase = .active → s.sched.deferred ≠ none →
      exec (.offerSpacingEnd t) s =
        .next
          { handOver (offerFrame s.content) (startEvent t s) with
            sched :=
              { s.sched with
                periodicDue := some (max s.now t + ms 2000), changeDeadline := none, lastHandover := some (max s.now t),
                reference := some s.content, deferred := none } }) ∧
    (s.sched.phase = .withdrawn → s.sched.withdrawalOwed = true →
      exec (.offerSpacingEnd t) s =
        .next
          { handOver (offerFrame s.content) (startEvent t s) with
            sched := { s.sched with lastHandover := some (max s.now t), withdrawalOwed := false } }))

/-- R11, R12: an OFFER of a peer makes or replaces its entry, with all fields from the OFFER; with room in the table, no other
entry changes, and nothing else does while the origin record waits for no candidate. -/
def Obligations.OfferStoresItsEntry : Prop :=
  ∀ (t : Time) (f : Rx) (s : State) (supply : Supply) (depth : Nat) (a b : Option Summary),
    s.inReset = false → s.hearsOffer f → readOffer f.payload = .entry supply depth a b → s.waitsForCandidate = false →
    (s.offerTable.length < 30 ∨ ∃ e ∈ s.offerTable, e.station = f.sender.toNat) →
    ∃ u, exec (.offer t f) s = .next u ∧ u = { hunt (startEvent t s) with offerTable := u.offerTable } ∧
      ∀ e, e ∈ u.offerTable ↔
        e = { station := f.sender.toNat, receivedAt := max s.now t, supply := supply, depth := depth, a := a, b := b } ∨
          (e.station ≠ f.sender.toNat ∧ e ∈ s.offerTable)

/-- R13, R14, R32: a withdrawal removes the sender's entry, an entry that has reached 10,000 ms lapses, and an entry leaves
the avoid list 30,000 ms after it entered; all else stays. -/
def Obligations.EntriesLeaveInTime : Prop :=
  (∀ (t : Time) (s : State), s.inReset = false →
    (∀ f, s.hearsOffer f → readOffer f.payload = .withdrawal →
      exec (.offerWithdrawal t f) s =
        .next { hunt (startEvent t s) with offerTable := s.offerTable.filter fun e => e.station != f.sender.toNat }) ∧
    ∀ st, exec (.offerEntryExpiry t st) s =
      .next
        { startEvent t s with
          offerTable := s.offerTable.filter fun e => e.station != st || decide (max s.now t < e.receivedAt + ms 10000) }) ∧
  (∀ (t : Time) (st : Station) (s : State), s.inReset = false →
    exec (.avoidEntryLeave t st) s =
      .next
        { startEvent t s with
          coc :=
            { s.coc with
              avoid := s.coc.avoid.filter fun e => e.station != st || decide (max s.now t < e.enteredAt + ms 30000) } })

/-- R10, taken at the end of an event (log 10): the flag turning no in ACTIVE withdraws the offer, with its withdrawal handed
over or owed; turning yes in WITHDRAWN it makes the schedule ACTIVE again with a change deadline 100 ms later. That the
withdrawal goes out at once where nothing has been handed over before is the model's choice (log 51). -/
def Obligations.FlagChangeActsOnTheSchedule : Prop :=
  ∀ s0 s : State,
    (s0.offeringFlag = true → s.offeringFlag = false → s.sched.phase = .active →
      (offerSync s0 s).sched.phase = .withdrawn ∧ (offerSync s0 s).sched.changeDeadline = none ∧
        (offerSync s0 s).sched.periodicDue = none ∧ (offerSync s0 s).sched.reference = none ∧
        ((∀ x, s.sched.lastHandover = some x → x + ms 250 ≤ s.now) →
          (offerSync s0 s).sched.withdrawalOwed = false ∧ (offerSync s0 s).sched.lastHandover = some s.now ∧
            (offerSync s0 s).band = (handOver (offerFrame s.content) s).band) ∧
        (∀ x, s.sched.lastHandover = some x → s.now < x + ms 250 →
          (offerSync s0 s).sched.withdrawalOwed = true ∧ (offerSync s0 s).band = s.band)) ∧
    (s0.offeringFlag = false → s.offeringFlag = true → s.sched.phase = .withdrawn →
      offerSync s0 s =
        { s with sched := { s.sched with phase := .active, changeDeadline := some (s.now + ms 100), withdrawalOwed := false } })

/-! ## Caller Panel and Supply Monitor (09) -/

/-- R34, R36, R153, R154, R175: a sample 10 ms or more after the last counts, one before that changes nothing but the time
(log 44); the filtered state of the button changes on the third sample that differs; a press in IDLE or FAILED starts a new
call with the next tag, SEEKING with its deadlines when there is no candidate; in any other state it is counted as ignored. -/
def Obligations.ButtonIsFilteredAndTaken : Prop :=
  (∀ (t : Time) (p : Bool) (s : State), s.inReset = false →
    (max s.now t < s.button.sampledAt + ms 10 →
      exec (.buttonSample t p) s = .next (startEvent t s) ∧ exec (.buttonPress t) s = .next (startEvent t s) ∧
        exec (.buttonRelease t) s = .next (startEvent t s)) ∧
    (s.button.sampledAt + ms 10 ≤ max s.now t →
      (p = s.button.pressed →
        exec (.buttonSample t p) s =
          .next { startEvent t s with button := { s.button with disagree := 0, sampledAt := max s.now t } }) ∧
      (p ≠ s.button.pressed → s.button.disagree < 2 →
        exec (.buttonSample t p) s =
          .next
            { startEvent t s with
              button := { s.button with disagree := s.button.disagree + 1, sampledAt := max s.now t } }) ∧
      (s.button.pressed = true → s.button.disagree = 2 →
        exec (.buttonRelease t) s =
          .next { startEvent t s with button := { pressed := false, disagree := 0, sampledAt := max s.now t } }))) ∧
  ((∀ (t : Time) (s : State), s.inReset = false → s.button.sampledAt + ms 10 ≤ max s.now t → s.button.pressed = false →
    s.button.disagree = 2 → (s.coc.state = .idle ∨ s.coc.state = .failed) → s.noCandidate → s.svc.test = none →
    ∃ u, exec (.buttonPress t) s = .next u ∧
      u = { startEvent t s with
            button := { pressed := true, disagree := 0, sampledAt := max s.now t }, coc := u.coc, csw := u.csw,
            lamp := u.lamp, out := u.out,
            counters := { s.counters with callsOriginated := satInc s.counters.callsOriginated } } ∧
      u.coc.state = .seeking ∧ u.coc.tag = s.coc.tagCounter + 1 ∧ u.coc.tagCounter = s.coc.tagCounter + 1 ∧
      u.coc.path = none ∧ u.coc.answered = false ∧ u.coc.recoveries = 0 ∧ u.coc.dropouts = 0 ∧ u.coc.attempts = 0 ∧
      u.coc.searchDeadline = some (max s.now t + ms 180000) ∧ u.coc.retryTime = some (max s.now t + ms 2000) ∧
      u.coc.avoid = s.coc.avoid ∧ u.coc.endReason = s.coc.endReason ∧ u.lamp.requested = .seek ∧ u.lamp.wanted = .seek ∧
      (s.csw.speaker.overlay ≠ some .ident →
        u.csw.players.s.prompt = some .connecting ∧ u.csw.players.s.state = .playing)) ∧
  (∀ (t : Time) (s : State), s.inReset = false → s.button.sampledAt + ms 10 ≤ max s.now t → s.button.pressed = false →
    s.button.disagree = 2 → s.coc.state ≠ .idle → s.coc.state ≠ .failed → s.svc.test = none →
    exec (.buttonPress t) s =
      .next
        { startEvent t s with
          button := { pressed := true, disagree := 0, sampledAt := max s.now t },
          coc := { s.coc with pressesIgnored := satInc s.coc.pressesIgnored } }))

/-- R55, R156, R157: the on-time ends; a period ends, is counted in SEEK, and the pending pattern or the next period starts;
at the eighth period of SEEK the record's tick plays PLEASE-WAIT when it searches and SPEAKER is silent. -/
def Obligations.LampRunsItsPattern : Prop :=
  (∀ (t period onTime : Time) (s : State), s.inReset = false → lampTimes s.lamp.running = some (period, onTime) →
    (s.lamp.on = true → s.lamp.since + onTime ≤ max s.now t →
      exec (.lampOnTimeEnd t) s = .next { startEvent t s with lamp := { s.lamp with on := false } }) ∧
    (s.lamp.since + period ≤ max s.now t → (s.lamp.running = .seek → s.lamp.periodCount < 7) →
      (s.lamp.pending = none →
        exec (.lampPeriodEnd t) s =
          .next
            { startEvent t s with
              lamp :=
                { s.lamp with
                  since := max s.now t, on := true,
                  periodCount := if s.lamp.running = .seek then s.lamp.periodCount + 1 else s.lamp.periodCount } }) ∧
      ∀ p, s.lamp.pending = some p → p ≠ s.lamp.running →
        exec (.lampPeriodEnd t) s =
          .next
            { startEvent t s with
              lamp := { s.lamp with running := p, pending := none, since := max s.now t, on := true, periodCount := 0 } })) ∧
  (∀ (t : Time) (s : State), s.inReset = false → s.lamp.running = .seek → s.lamp.periodCount = 7 →
    s.lamp.pending = none → s.lamp.since + ms 1000 ≤ max s.now t →
    (s.coc.state.searching = true → s.csw.players.s.state = .idle → s.csw.speaker.overlay = none →
      exec (.periodTick t) s =
        .next
          { startEvent t s with
            lamp := { s.lamp with periodCount := 0, since := max s.now t, on := true },
            csw :=
              { s.csw with
                speaker := { s.csw.speaker with overlay := some .player },
                players :=
                  { s.csw.players with
                    s := { state := .playing, owner := some .origin, prompt := some .pleaseWait, repeats := 1, gap := 0,
                           playsDone := 0, since := max s.now t } } } }) ∧
    (s.csw.players.s.state ≠ .idle →
      exec (.periodTick t) s =
        .next { startEvent t s with lamp := { s.lamp with periodCount := 0, since := max s.now t, on := true } }))

/-- R159, R160, R161: the class of a sample in millivolts (log 33); a sample of another class makes it the candidate, the third in
a row makes it the state from NORMAL or RESERVE, and the offer builder is told. A sample counts 100 ms or more after the last;
one before that changes nothing but the time (log 44). -/
def Obligations.SupplyNeedsThreeSamples : Prop :=
  (∀ (set1 : Bool) (mv : Nat),
    let k := if set1 then 2 else 1
    (classify set1 .normal mv = .low ↔ mv < 11000 * k) ∧
    (classify set1 .normal mv = .reserve ↔ 11000 * k ≤ mv ∧ mv < 11800 * k) ∧
    (classify set1 .normal mv = .normal ↔ 11800 * k ≤ mv) ∧
    (classify set1 .reserve mv = .low ↔ mv < 11000 * k) ∧
    (classify set1 .reserve mv = .reserve ↔ 11000 * k ≤ mv ∧ mv < 12200 * k) ∧
    (classify set1 .reserve mv = .normal ↔ 12200 * k ≤ mv) ∧
    (classify set1 .low mv = .low ↔ mv < 11400 * k) ∧
    (classify set1 .low mv = .reserve ↔ 11400 * k ≤ mv ∧ mv < 12200 * k) ∧
    (classify set1 .low mv = .normal ↔ 12200 * k ≤ mv)) ∧
  (∀ (t : Time) (mv : Nat) (s : State), s.inReset = false →
    let cls := classify s.straps.supplySet s.supply.state mv
    (max s.now t < s.supply.sampledAt + ms 100 →
      exec (.supplySample t mv) s = .next (startEvent t s) ∧ exec (.supplyStateChange t mv) s = .next (startEvent t s)) ∧
    (s.supply.sampledAt + ms 100 ≤ max s.now t →
      (cls = s.supply.state →
        exec (.supplySample t mv) s =
          .next
            { startEvent t s with
              supply := { s.supply with candidate := none, agree := 0, sampledAt := max s.now t } }) ∧
      (cls ≠ s.supply.state → s.supply.candidate ≠ some cls →
        exec (.supplySample t mv) s =
          .next
            { startEvent t s with
              supply := { s.supply with candidate := some cls, agree := 1, sampledAt := max s.now t } }) ∧
      (cls ≠ s.supply.state → s.supply.candidate = some cls → s.supply.agree = 1 →
        exec (.supplySample t mv) s =
          .next { startEvent t s with supply := { s.supply with agree := 2, sampledAt := max s.now t } }) ∧
      (cls ≠ s.supply.state → s.supply.candidate = some cls → s.supply.agree = 2 → s.supply.state ≠ .low →
        exec (.supplyStateChange t mv) s =
          .next
            (offerSync (startEvent t s)
              { startEvent t s with
                supply := { state := cls, candidate := none, agree := 0, sampledAt := max s.now t } }))))

/-! ## Carriage Switch (08) -/

/-- R126, R130, R141 to R144, R147: what a destination hears by its overlay, hold and base route, and what a driven half sends; a
half on a lane held for a lane test sends nothing but the pattern of the test (8.1). That the later sample of a word stands in its
upper bits, with the least significant bit of each first on the line, is the choice of the model (log 8, 45). A new route from a
lane sets the hold of 600 ms, and one that has passed is cleared; a play that ends is counted, the last one
ends the prompt and is signalled to its owner, another is followed by the gap or the next play. -/
def Obligations.HoldsAndPromptsEnd : Prop :=
  (∀ (d : Dest) (s : State),
    ((s.csw.slot d).overlay = some .ident → destHears s d = if s.csw.ident.tone.isSome then .burst else .silence) ∧
    (∀ p, playerDest p = d → (s.csw.slot d).overlay = some .player →
      (∀ q, (s.csw.players.get p).state = .playing → (s.csw.players.get p).prompt = some q →
        destHears s d = .prompt q) ∧
      ((s.csw.players.get p).state ≠ .playing → destHears s d = .silence)) ∧
    ((s.csw.slot d).overlay = none → (s.csw.slot d).base = none → destHears s d = .silence) ∧
    ∀ src, (s.csw.slot d).overlay = none → (s.csw.slot d).base = some src →
      (∀ h, (s.csw.slot d).holdUntil = some h → s.now < h → destHears s d = .silence) ∧
      ((∀ h, (s.csw.slot d).holdUntil = some h → h ≤ s.now) →
        (src = .mic → destHears s d = .source .mic) ∧ (src = .silence → destHears s d = .silence) ∧
        (∀ m, src = .modRx m → destHears s d = if (s.mod m).power then .source src else .silence) ∧
        ∀ l h, src = .laneRx l h → destHears s d = if s.csw.gapMark l h then .silence else .source src)) ∧
  (∀ (d : Dest) (src : Source) (o : Owner) (s : State),
    ((s.csw.slot d).base = some src → setRoute d src o s = s) ∧
    ((s.csw.slot d).base ≠ some src →
      setRoute d src o s = { s with csw := (setRoute d src o s).csw } ∧
        (setRoute d src o s).csw.slot d =
          { s.csw.slot d with
            base := some src, owner := some o,
            holdUntil := match src with
              | .laneRx _ _ => some (s.now + ms 600)
              | .mic => none
              | .modRx _ => none
              | .silence => none } ∧
        (∀ e, e ≠ d → (setRoute d src o s).csw.slot e = s.csw.slot e) ∧
        (setRoute d src o s).csw.players = s.csw.players ∧ (setRoute d src o s).csw.ident = s.csw.ident)) ∧
  (∀ (l : Lane) (o : Owner) (s : State), s.inReset = false → (s.lane l).occupancy = .own → (s.lane l).owner = some o →
    let half : Half := match o with
      | .origin => .a
      | .laneTest => .a
      | .carriage _ => .b
    halfSends s l (otherHalf half) = .nothing ∧
    ((s.engine (engineOf o)).generator = .running → (s.engine (engineOf o)).lane = some l →
      halfSends s l half = .pattern ∧
      ∀ (n : Nat) (s1 : State) (i0 i1 : VoiceIn), o ≠ .laneTest →
        (s.engine (engineOf o)).genStart + n * wordTime ≤ s.now →
        s.now < (s.engine (engineOf o)).genStart + (n + 1) * wordTime →
        halfWord s s1 i0 i1 l half = some (nextWord (freeRun (32 * n) (s.engine (engineOf o)).genSeed)).1) ∧
    (((s.engine (engineOf o)).generator ≠ .running ∨ (s.engine (engineOf o)).lane ≠ some l) →
      (o = .laneTest → halfSends s l half = .nothing) ∧
      (o ≠ .laneTest →
        halfSends s l half = .stream (destHears s (.lane l)) ∧
        ∀ (s1 : State) (i0 i1 : VoiceIn),
          halfWord s s1 i0 i1 l half = some (destSample s1 i1 (.lane l) ++ destSample s i0 (.lane l))))) ∧
  (∀ (t h : Time) (d : Dest) (s : State), s.inReset = false → (s.csw.slot d).holdUntil = some h → h ≤ max s.now t →
    ∃ u, exec (.holdUntilEnd t d) s = .next u ∧ u = { startEvent t s with csw := u.csw } ∧
      u.csw.slot d = { s.csw.slot d with holdUntil := none } ∧ (∀ e, e ≠ d → u.csw.slot e = s.csw.slot e) ∧
      u.csw.players = s.csw.players ∧ u.csw.ident = s.csw.ident ∧ u.csw.gapA = s.csw.gapA ∧ u.csw.gapB = s.csw.gapB) ∧
  (∀ (t : Time) (p : PlayerId) (o : Owner) (q : Prompt) (s : State), s.inReset = false →
    (s.csw.players.get p).owner = some o → (s.csw.players.get p).prompt = some q →
    ((s.csw.players.get p).state = .playing → (s.csw.players.get p).since + promptTime q ≤ max s.now t →
      (s.csw.players.get p).playsDone.toNat < 15 →
      ((s.csw.players.get p).playsDone + 1 = (s.csw.players.get p).repeats →
        ∃ u, exec (.promptPlayEnd t p) s = .next u ∧ u = { startEvent t s with csw := u.csw, out := u.out } ∧
          u.out = [.signal o (playerDest p) (.prompt q) .completed] ∧ (u.csw.players.get p).state = .idle ∧
          (u.csw.players.get p).owner = none ∧ (u.csw.players.get p).prompt = none ∧
          (∀ i, i ≠ p → u.csw.players.get i = s.csw.players.get i) ∧
          u.csw.slot (playerDest p) = { s.csw.slot (playerDest p) with overlay := none } ∧
          (∀ d, d ≠ playerDest p → u.csw.slot d = s.csw.slot d)) ∧
      ((s.csw.players.get p).playsDone + 1 ≠ (s.csw.players.get p).repeats →
        exec (.promptPlayEnd t p) s =
          .next
            { startEvent t s with
              csw :=
                { s.csw with
                  players :=
                    s.csw.players.set p
                      { s.csw.players.get p with
                        playsDone := (s.csw.players.get p).playsDone + 1,
                        state := if (s.csw.players.get p).gap = 0 then .playing else .gap, since := max s.now t } } })) ∧
    ((s.csw.players.get p).state = .gap → (s.csw.players.get p).since + (s.csw.players.get p).gap ≤ max s.now t →
      exec (.promptGapEnd t p) s =
        .next
          { startEvent t s with
            csw :=
              { s.csw with
                players := s.csw.players.set p { s.csw.players.get p with state := .playing, since := max s.now t } } }))

/-- R151: a digit's tone has the zeros, the peaks and the squares of a sine of 600 Hz and 150 Hz more for each unit, with a peak
of one quarter of full scale; the gaps are silent. That full scale is 32,768, so that the peak is 8,192, that the sine starts at
its rising zero and that a negative sample is in two's complement are the model's choices, and the rounding of a sample is a
free value (log 45). After 70 ms the tone ends, after 50 ms its gap; then comes the next digit, or after the eighth the end of
the burst, told to the carriage. -/
def Obligations.IdentityBurstTiming : Prop :=
  (∀ d n : Nat, (toneSample d n).toInt.natAbs ≤ 8192 ∧
    -- a zero each half cycle, and the peaks between, with 160 parts to a cycle and 12 + 3 d of them to a sample
    (n * (12 + 3 * d) % 80 = 0 → toneSample d n = 0) ∧
    (n * (12 + 3 * d) % 160 = 40 → (toneSample d n).toInt = 8192) ∧
    (n * (12 + 3 * d) % 160 = 120 → (toneSample d n).toInt = -8192) ∧
    -- two samples a quarter of a cycle apart, as sine and cosine, up to the rounding
    (∀ k, k * (12 + 3 * d) % 160 = (n * (12 + 3 * d) + 40) % 160 →
      ((toneSample d n).toInt ^ 2 + (toneSample d k).toInt ^ 2 - 8192 ^ 2).natAbs ≤ 24000) ∧
    toneHertz d * 160 = (12 + 3 * d) * 8000) ∧
  (∀ (s : State) (i : VoiceIn) (d : Dest) (r : BurstRequest), (s.csw.slot d).overlay = some .ident →
    s.csw.ident.running = some r →
    (s.csw.ident.inTone = true →
      destSample s i d =
        toneSample (s.csw.ident.digits.getD (s.csw.ident.digit - 1) 0) ((s.now - s.csw.ident.since) / sampleTime)) ∧
    (s.csw.ident.inTone = false → destSample s i d = 0)) ∧
  ∀ (t : Time) (r : BurstRequest) (s : State), s.inReset = false → s.csw.ident.running = some r →
    (s.csw.ident.inTone = true → s.csw.ident.since + ms 70 ≤ max s.now t →
      exec (.identToneEnd t) s =
        .next
          { startEvent t s with
            csw := { s.csw with ident := { s.csw.ident with inTone := false, since := max s.now t } } }) ∧
    (s.csw.ident.inTone = false → s.csw.ident.since + ms 50 ≤ max s.now t → s.csw.ident.digit < 8 →
      exec (.identGapEnd t) s =
        .next
          { startEvent t s with
            csw :=
              { s.csw with
                ident := { s.csw.ident with digit := s.csw.ident.digit + 1, inTone := true, since := max s.now t } } }) ∧
    (s.csw.ident.inTone = false → s.csw.ident.since + ms 50 ≤ max s.now t → s.csw.ident.digit = 8 →
      s.csw.ident.waiting = none → s.carriageWaits r.dest = false →
      exec (.identGapEnd t) s =
        .next
          { startEvent t s with
            csw :=
              { s.csw with
                modTx := s.csw.modTx.set r.dest { s.csw.modTx.get r.dest with overlay := none },
                ident := { s.csw.ident with running := none } },
            out :=
              if (s.car r.dest).isSome then [.signal (.carriage r.dest) (.modTx r.dest) .burst .completed] else [] })

/-! ## Control Band Interface (10) -/

/-- R163, R164: a dominant level makes the band active; after 1 ms of rest it begins a frame, so that the receiver no longer
hunts. On a quiet band it is kept as the start edge (R165; log 48). When the band has stayed recessive for ten bit times (log 1),
it is quiet since the last dominant level. -/
def Obligations.BandActiveAndQuiet : Prop :=
  ∀ (t : Time) (s : State), s.inReset = false →
    exec (.bandActivity t) s =
      .next
        { startEvent t s with
          band :=
            { s.band with
              quietSince := none, lastDominant := max s.now t,
              startEdge := match s.band.quietSince with
                | some q => some { heardAt := max s.now t, quietSince := q }
                | none => s.band.startEdge
              receiving := s.band.receiving || decide (s.band.lastDominant + ms 1 ≤ max s.now t) } } ∧
    (s.band.quietSince = none → s.band.lastDominant + 50 ≤ max s.now t →
      exec (.bandQuiet t) s =
        .next { startEvent t s with band := { s.band with quietSince := some s.band.lastDominant } }) ∧
    (s.band.quietSince ≠ none ∨ max s.now t < s.band.lastDominant + 50 →
      exec (.bandQuiet t) s = .next (startEvent t s))

/-- R165: the frame in hand goes on the line when the band has been quiet for 2 ms, or after n collisions for 3n ms and a
quarter millisecond for each unit of the own number; and also when that quiet ends within the bit time of another station's
start edge, taken within it (log 48); the bits are then timed from that edge, and else from its own. A command at any other time
changes nothing but the time (log 2); that the own first start bit makes the band active and begins a frame at the own receiver
is the model's reading (log 29). -/
def Obligations.SendingWaitsForTheRequiredQuiet : Prop :=
  ∀ (t : Time) (h : Hand) (s : State), s.inReset = false → s.band.hand = some h → h.line = none →
    let need := if h.collisions = 0 then ms 2 else ms 3 * h.collisions + 24 * s.own
    let started := fun (edge : Time) => { startEvent t s with
      band :=
        { s.band with
          hand := some { h with line := s.band.handFrame, replaced := false }, quietSince := none, startEdge := none,
          sendSince := edge, lastDominant := max s.now t, receiving := true } }
    (∀ q, s.band.quietSince = some q →
      (q + need ≤ max s.now t → exec (.sendStart t) s = .next (started (max s.now t))) ∧
      (max s.now t < q + need → exec (.sendStart t) s = .next (startEvent t s))) ∧
    (∀ e, s.band.quietSince = none → s.band.startEdge = some e →
      (e.heardAt ≤ e.quietSince + need → e.quietSince + need ≤ max s.now t → max s.now t < e.heardAt + 5 →
        exec (.sendStart t) s = .next (started e.heardAt)) ∧
      (e.quietSince + need < e.heardAt ∨ max s.now t < e.quietSince + need ∨ e.heardAt + 5 ≤ max s.now t →
        exec (.sendStart t) s = .next (startEvent t s))) ∧
    (s.band.quietSince = none → s.band.startEdge = none → exec (.sendStart t) s = .next (startEvent t s))

/-- R166, R167: a frame that has gone out whole is counted and leaves the queue, but for an OFFER replaced meanwhile; a
collision is counted and the frame waits again, and the eighth drops a call frame. -/
def Obligations.FramesLeaveTheQueue : Prop :=
  (∀ (t : Time) (h : Hand) (f : Frame) (s : State), s.inReset = false → s.band.hand = some h → h.line = some f →
    ∃ u, exec (.frameSent t) s = .next u ∧
      u = { startEvent t s with
            band := { s.band with calls := u.band.calls, offer := u.band.offer, services := u.band.services,
                                  hand := u.band.hand, receiving := false },
            counters := { s.counters with framesSent := satInc s.counters.framesSent },
            out := [.frame (frameOctets (oct s.own) f)] } ∧
      (h.cls = .call → h.replaced = false →
        u.band.calls = s.band.calls.tail ∧ u.band.offer = s.band.offer ∧ u.band.services = s.band.services) ∧
      (h.cls = .offer → h.replaced = false →
        u.band.calls = s.band.calls ∧ u.band.offer = none ∧ u.band.services = s.band.services) ∧
      (h.cls = .service → h.replaced = false →
        u.band.calls = s.band.calls ∧ u.band.offer = s.band.offer ∧ u.band.services = s.band.services.tail) ∧
      (h.replaced = true →
        u.band.calls = s.band.calls ∧ u.band.offer = s.band.offer ∧ u.band.services = s.band.services) ∧
      (∀ g, u.band.hand = some g → g.line = none ∧ g.collisions = 0)) ∧
  (∀ (t : Time) (h : Hand) (f : Frame) (s : State), s.inReset = false → s.band.hand = some h → h.line = some f →
    (h.collisions < 7 →
      exec (.collision t) s =
        .next
          { startEvent t s with
            counters := { s.counters with collisions := satInc s.counters.collisions },
            band :=
              { s.band with hand := some { h with line := none, collisions := h.collisions + 1, replaced := false } } }) ∧
    (7 ≤ h.collisions → h.cls = .call →
      ∃ u, exec (.collision t) s = .next u ∧
        u = { startEvent t s with
              counters :=
                { s.counters with collisions := satInc s.counters.collisions,
                                  framesDropped := satInc s.counters.framesDropped },
              band := { s.band with calls := s.band.calls.tail, hand := u.band.hand } } ∧
        ∀ g, u.band.hand = some g → g.line = none ∧ g.collisions = 0))

/-- R60, R163, R170, R171, R173: a frame that goes wrong in reception, or whose payload is longer than 40 octets, is counted as a check
error and the receiver hunts; while it hunts, nothing is read. An addressed frame of no known kind or of a sender above 31 is
counted as dropped, and so is each frame that the arbiter discards: a malformed one, one with target 0 or sender 0, and a
CONNECT or RELEASE that names no carriage record and no queue entry. Reports change nothing. -/
def Obligations.UnusableFramesAreCounted : Prop :=
  (∀ (t : Time) (e : RxError) (s : State), s.inReset = false →
    (s.band.receiving = true →
      (e = .badStopBit ∨ (e = .truncated ∧ s.band.lastDominant + ms 1 ≤ max s.now t) ∨
        (∃ len, e = .lengthAbove40 len ∧ 40 < len.toNat) ∨
        (∃ octets, e = .badCheck octets ∧ checkGood octets = false)) →
      exec (.frameDiscarded t e) s =
        .next
          { hunt (startEvent t s) with counters := { s.counters with checkErrors := satInc s.counters.checkErrors } }) ∧
    (s.band.receiving = true → e = .truncated → max s.now t < s.band.lastDominant + ms 1 →
      exec (.frameDiscarded t e) s = .next (startEvent t s)) ∧
    (s.band.receiving = false → exec (.frameDiscarded t e) s = .next (startEvent t s))) ∧
  (∀ (t : Time) (f : Rx) (s : State), s.inReset = false → s.receives f → f.sender.toNat ≠ s.own →
    (∀ kind : Octet, (f.target = 0 ∨ f.target.toNat = s.own) → (31 < f.sender.toNat ∨ kindOf kind.toNat = none) →
      exec (.unknownKindFrame t kind f) s =
        .next
          { hunt (startEvent t s) with
            counters := { s.counters with framesDropped := satInc s.counters.framesDropped } }) ∧
    (f.sender.toNat ≤ 31 → exec (.reportFrameHeard t f) s = .next (hunt (startEvent t s)))) ∧
  (∀ (t : Time) (f : Rx) (s : State), s.inReset = false → s.receives f → f.sender.toNat ≤ 31 →
    (s.own = 0 ∨ f.sender.toNat ≠ s.own) → (f.target = 0 ∨ f.target.toNat = s.own) →
    let counted : Host.Outcome State Fault Refusal :=
      .next
        { hunt (startEvent t s) with counters := { s.counters with framesDropped := satInc s.counters.framesDropped } }
    let unnamed := s.carriageOf f.sender.toNat (octetAt f.payload 0) = none
    (f.target = 0 ∨ f.sender = 0 ∨ f.payload.length ≠ 3 ∨ 1 < octAt f.payload 1 →
      exec (.claimNew t f) s = counted ∧ exec (.claimRejoin t f) s = counted) ∧
    (f.target = 0 ∨ f.sender = 0 ∨ f.payload.length ≠ 3 ∨ unnamed → exec (.connect t f) s = counted) ∧
    ((f.payload.length ≠ 2 ∨ octAt f.payload 1 = 5 ∨ octAt f.payload 1 = 6) →
      (f.target = 0 ∨ f.sender = 0 ∨ f.payload.length ≠ 2 ∨
        (unnamed ∧ s.queued f.sender.toNat (octetAt f.payload 0) = false)) →
      exec (.releaseFromOrigin t f) s = counted)) ∧
  ∀ (t : Time) (kind : Octet) (f : Rx) (s : State), s.inReset = false →
    (s.band.receiving = true → 40 < f.payload.length →
      exec (.unknownKindFrame t kind f) s =
        .next
          { hunt (startEvent t s) with counters := { s.counters with checkErrors := satInc s.counters.checkErrors } }) ∧
    (s.band.receiving = false → exec (.unknownKindFrame t kind f) s = .next (startEvent t s))

/-- R155, R172: a frame of another station with the own number sets the duplicate-number fault and is counted; the wanted
pattern is formed again, the offering flag is no, and an ACTIVE schedule withdraws its offer. -/
def Obligations.DuplicateFrameSetsTheFault : Prop :=
  ∀ (t : Time) (s : State), s.inReset = false → s.own ≠ 0 → s.band.receiving = true →
    ∃ u, exec (.duplicateNumberFrame t) s = .next u ∧
      u = { startEvent t s with band := u.band, lamp := u.lamp, sched := u.sched, counters := u.counters } ∧
      u.band.dupFault = true ∧ u.band.dupFrames = satInc s.band.dupFrames ∧ u.band.receiving = false ∧
      u.offeringFlag = false ∧
      u.lamp.requested = s.lamp.requested ∧
      u.lamp.wanted = (if s.lamp.requested = .dark then .fault else s.lamp.requested) ∧
      (s.offeringFlag = true → s.sched.phase = .active → u.sched.phase = .withdrawn) ∧
      (s.offeringFlag = false → u.sched = s.sched)

/-- R165, R167, R168, R169: a frame handed over joins the end of its class while there is room, an OFFER the place of a queued
one. A full queue loses its oldest WAIT that is not in hand to a call frame, and else the frame. With no frame in hand the
first of the queue comes into hand. Station 0 takes none. -/
def Obligations.HandOverJoinsItsClass : Prop :=
  ∀ (f : Frame) (s : State),
    let b := s.band
    -- the frame in hand: as it was, or the first in queue order, WAITING
    let hand := fun (calls : List Frame) (offer : Option Frame) (services : List Frame) =>
      match b.hand with
      | some g => some g
      | none =>
        let waiting := fun (k : FrameClass) => some ({ cls := k, line := none, collisions := 0, replaced := false } : Hand)
        if calls ≠ [] then waiting .call
        else if offer ≠ none then waiting .offer else if services ≠ [] then waiting .service else none
    let lost := { s.counters with framesDropped := satInc s.counters.framesDropped }
    let unchanged := { s with band := { b with hand := hand b.calls b.offer b.services }, counters := lost }
    (s.own = 0 → handOver f s = s) ∧
    (s.own ≠ 0 → frameClass f.kind = .call →
      (b.size < 12 →
        handOver f s =
          { s with band := { b with calls := b.calls ++ [f], hand := hand (b.calls ++ [f]) b.offer b.services } }) ∧
      (12 ≤ b.size →
        let others := fun (l : List Frame) => if b.hand.any (fun g => g.cls == .call) then l.tail else l
        (∀ before w after, b.calls = before ++ w :: after → w.kind = .wait →
          (∀ g, b.hand = some g → g.cls = .call → before ≠ []) → (∀ x ∈ others before, x.kind ≠ .wait) →
          handOver f s =
            { s with
              band := { b with calls := before ++ after ++ [f], hand := hand (before ++ after ++ [f]) b.offer b.services },
              counters := lost }) ∧
        ((∀ x ∈ others b.calls, x.kind ≠ .wait) → handOver f s = unchanged))) ∧
    (s.own ≠ 0 → frameClass f.kind = .offer →
      (b.offer = none → b.size < 12 →
        handOver f s = { s with band := { b with offer := some f, hand := hand b.calls (some f) b.services } }) ∧
      (b.offer = none → 12 ≤ b.size → handOver f s = unchanged) ∧
      (b.offer ≠ none →
        (∀ g, b.hand = some g → g.cls = .offer → g.line ≠ none →
          handOver f s = { s with band := { b with offer := some f, hand := some { g with replaced := true } } }) ∧
        ((∀ g, b.hand = some g → g.cls = .offer → g.line = none) →
          handOver f s = { s with band := { b with offer := some f, hand := hand b.calls (some f) b.services } }))) ∧
    (s.own ≠ 0 → frameClass f.kind = .service →
      (b.services.length < 2 → b.size < 12 →
        handOver f s =
          { s with band := { b with services := b.services ++ [f], hand := hand b.calls b.offer (b.services ++ [f]) } }) ∧
      ((2 ≤ b.services.length ∨ 12 ≤ b.size) → handOver f s = unchanged))

/-! ## Call Origin Controller (03) -/

/-- R35, R36, R37, R67, R68, R79, R85: at the retry time the waiting record ranks again: with no candidate it waits 2,000 ms more;
a PEER outcome, with a lane free for choosing, is claimed with the record's tag and lane mask; a LOCAL outcome is claimed at the
own arbiter, which grants a module, queues the claim or refuses it. That the claim is answered before the first dial attempt, so
that the record is in DIALING when its first stage is told, is the model's reading (log 9), and that it holds no network until
then, since the network of an earlier path went with that path, is the model's choice (log 12). -/
def Obligations.RetryRanksAgain : Prop :=
  (∀ (t r : Time) (s : State), s.inReset = false → s.coc.state = .seeking → s.coc.retryTime = some r →
    r ≤ max s.now t → s.noCandidate →
    ∃ u, exec (.retryTime t) s = .next u ∧ u = { startEvent t s with coc := u.coc, lamp := u.lamp } ∧
      u.coc.state = .seeking ∧ u.coc.retryTime = some (max s.now t + ms 2000) ∧ u.coc.tag = s.coc.tag ∧
      u.coc.avoid = s.coc.avoid ∧ u.coc.path = none ∧ u.lamp.requested = .seek ∧
      (∀ d, s.coc.searchDeadline = some d → u.coc.searchDeadline = some d)) ∧
  (∀ (t r : Time) (c : Candidate) (s : State), s.inReset = false → s.coc.state = .seeking → s.coc.retryTime = some r →
    r ≤ max s.now t → ranking (startEvent t s) = some c → c.kind = .peer → s.laneMask ≠ 0 →
    ∃ u, exec (.retryTime t) s = .next u ∧
      u = { startEvent t s with coc := u.coc, lamp := u.lamp, band := u.band, counters := u.counters } ∧
      u.coc.state = .claiming ∧ u.coc.onPeer c.station ∧ u.coc.claimKind = .new ∧ u.coc.attempts = 1 ∧
      u.coc.tag = s.coc.tag ∧ u.coc.answerDeadline = some (max s.now t + ms 1500) ∧ u.coc.retryTime = none ∧
      u.band = (handOver (claimFrame c.station s.coc.tag .new s.laneMask) s).band) ∧
  -- LOCAL: no claim or carriage of the own origin is left from an earlier tag
  (∀ (t r : Time) (c : Candidate) (s : State), s.inReset = false → s.coc.state = .seeking → s.coc.retryTime = some r →
    r ≤ max s.now t → ranking (startEvent t s) = some c → c.kind = .loc →
    (∀ e ∈ s.claims, e.origin ≠ s.own) → (∀ m x, s.car m = some x → x.origin ≠ s.own) →
    -- it waits in the queue
    (s.anyServiceable = true → (s.claims ≠ [] ∨ chooseModule s = none) → s.claims.length < 6 →
      (∀ e ∈ s.claims, e.loc = false) →
      ∃ u, exec (.retryTime t) s = .next u ∧
        u = { startEvent t s with
              coc := u.coc, lamp := u.lamp, sched := u.sched,
              claims :=
                s.claims ++
                  [{ origin := s.own, tag := s.coc.tag, loc := true, mask := none, arrivedAt := max s.now t,
                     expiresAt := max s.now t + ms 30000, lastWait := none }] } ∧
        u.coc.state = .queued ∧ u.coc.queuePos = some (s.claims.length + 1) ∧ u.coc.claimKind = .new ∧
        u.coc.path = some { kind := .loc, station := s.own, module := none, lane := none } ∧ u.coc.attempts = 0 ∧
        u.coc.tag = s.coc.tag ∧ u.coc.retryTime = none ∧ u.lamp.requested = .seek) ∧
    -- it is refused: the own number is avoided, and the record waits again
    ((s.anyServiceable = false ∨ s.claims.length = 6) →
      ∃ u, exec (.retryTime t) s = .next u ∧
        u = { startEvent t s with coc := u.coc, lamp := u.lamp } ∧ u.coc.state = .seeking ∧ u.coc.path = none ∧
        u.coc.avoid = avoidWith s.coc.avoid s.own (max s.now t) ∧ u.coc.retryTime = some (max s.now t + ms 2000) ∧
        u.coc.tag = s.coc.tag) ∧
    -- it is granted: the record is DIALING with its routes, and the module takes the first order of the dial attempt
    (∀ m, s.anyServiceable = true → s.claims = [] → chooseModule s = some m →
      let granted := fun (tried : List Code) (named : Option Code) (order : OrderKind) (code : Code) (r : Module) =>
        ∃ u, exec (.retryTime t) s = .next u ∧
          u = { startEvent t s with
                coc := u.coc, lamp := u.lamp, csw := u.csw, sched := u.sched, carriages := s.carriages.set m (u.car m),
                modules := s.modules.set m r,
                counters := { s.counters with callsGranted := satInc s.counters.callsGranted },
                out := [.order m order code] } ∧
          u.coc.state = .dialing ∧
          u.coc.path = some { kind := .loc, station := s.own, module := some m, lane := none } ∧
          u.coc.stage = (if named.isSome then some .dialing else none) ∧ u.coc.network = named ∧
          u.coc.searchDeadline = none ∧ u.coc.tag = s.coc.tag ∧ u.lamp.requested = .seek ∧
          u.car m = some
            { newCarriage s.own s.coc.tag .loc none with
              tried := tried, network := named, lastStage := if named.isSome then some .dialing else none } ∧
          u.csw.speaker.base = some (.modRx m) ∧ (u.csw.modTx.get m).base = some .mic
      (∀ code, (s.mod m).state = .ready → (s.mod m).inFlight = none →
        -- the selected network is dialled
        (dialChoice (s.mod m).table (s.mod m).selected [] = .dial code →
          granted [code] (some code) .dial 0
            { s.mod m with
              link := true, pendingOrder := none, state := .dialing, callInProgress := true, rescanDue := none,
              inFlight := some { kind := .dial, deadline := max s.now t + ms 10000, code := 0 } }) ∧
        -- another network is selected first
        (dialChoice (s.mod m).table (s.mod m).selected [] = .select code →
          granted [code] (some code) .select code
            { s.mod m with
              link := true, pendingOrder := none, state := .selecting, rescanDue := none,
              inFlight := some { kind := .select, deadline := max s.now t + ms 10000, code := code } })) ∧
      -- a refresh scan is aborted, and the attempt waits in the pending slot
      ((s.mod m).state = .refreshing → (s.mod m).flying .scan = true →
        granted [] none .abort 0
          { s.mod m with
            link := true, pendingOrder := some (.dial []),
            inFlight := some { kind := .abort, deadline := max s.now t + ms 2000, code := 0 } })))

/-- R38, R50: at the answer deadline, up to the third attempt, the same CLAIM is sent again with the lane mask of now. -/
def Obligations.UnansweredClaimIsSentAgain : Prop :=
  ∀ (t d : Time) (st : Station) (s : State), s.inReset = false → (s.coc.state = .claiming ∨ s.coc.state = .recovering) →
    s.coc.peer = some st → s.coc.answerDeadline = some d → d ≤ max s.now t → s.coc.attempts < 3 →
    exec (.answerDeadline t) s =
      .next
        (handOver (claimFrame st s.coc.tag s.coc.claimKind s.laneMask)
          { startEvent t s with
            coc := { s.coc with attempts := s.coc.attempts + 1, answerDeadline := some (max s.now t + ms 1500) } })

/-- R38, R39, R40, R43: a NEW claim that is refused, or whose answer, WAITs or regrant do not come, is given up:
RELEASE(ABANDON) goes to the uplink unless it refused, the uplink is avoided, and the record seeks again with the same tag. -/
def Obligations.FailedClaimSeeksAgain : Prop :=
  ∀ (t d : Time) (st : Station) (s : State), s.inReset = false → s.coc.onPeer st → s.coc.claimKind = .new →
    s.noCandidate →
    let after := fun (u : State) =>
      u = { startEvent t s with
            coc := u.coc, lamp := u.lamp, band := u.band, counters := u.counters, csw := u.csw } ∧
        u.coc.state = .seeking ∧ u.coc.path = none ∧ u.coc.tag = s.coc.tag ∧
        u.coc.avoid = avoidWith s.coc.avoid st (max s.now t) ∧ u.coc.answerDeadline = none ∧
        u.coc.silenceDeadline = none ∧ u.coc.regrantWait = none ∧ u.coc.retryTime = some (max s.now t + ms 2000)
    let abandoned := (handOver (releaseFrame st s.coc.tag .abandon) s).band
    (s.coc.state = .claiming → s.coc.answerDeadline = some d → d ≤ max s.now t → s.coc.attempts = 3 →
      ∃ u, exec (.answerDeadline t) s = .next u ∧ after u ∧ u.band = abandoned) ∧
    (s.coc.state = .queued → s.coc.silenceDeadline = some d → d ≤ max s.now t →
      ∃ u, exec (.silenceDeadline t) s = .next u ∧ after u ∧ u.band = abandoned) ∧
    (s.coc.state = .probing → s.coc.regrantWait = some d → d ≤ max s.now t →
      ∃ u, exec (.regrantWait t) s = .next u ∧ after u ∧ u.band = abandoned) ∧
    ∀ f : Rx, s.hears f → f.sender.toNat = st → f.payload.length = 2 → octetAt f.payload 0 = s.coc.tag →
      (s.coc.state = .claiming ∨ s.coc.state = .queued ∨ s.coc.state = .probing) →
      ∃ u, exec (.refuse t f) s = .next u ∧ after u ∧ u.band = (hunt s).band

/-- R53, R54: at the search deadline the record enters FAILED, releases its uplink and plays CALL-FAILED for the caller;
10,000 ms later it is IDLE with end reason FAILED. -/
def Obligations.SearchFailsAndIsShown : Prop :=
  ∀ (t d : Time) (s : State), s.inReset = false →
    (∀ st, s.coc.onPeer st → (s.coc.state = .claiming ∨ s.coc.state = .queued ∨ s.coc.state = .probing ∨
        s.coc.state = .recovering) → s.coc.searchDeadline = some d → d ≤ max s.now t →
      ∃ u, exec (.searchDeadline t) s = .next u ∧
        u = { startEvent t s with
              coc := u.coc, lamp := u.lamp, band := u.band, counters := u.counters, csw := u.csw, out := u.out } ∧
        u.coc.state = .failed ∧ u.coc.path = none ∧ u.coc.searchDeadline = none ∧
        u.coc.failedUntil = some (max s.now t + ms 10000) ∧ u.lamp.requested = .fail ∧
        u.band = (handOver (releaseFrame st s.coc.tag .abandon) s).band ∧
        (s.csw.speaker.overlay ≠ some .ident → u.csw.players.s.prompt = some .callFailed)) ∧
    (s.coc.state = .failed → s.coc.failedUntil = some d → d ≤ max s.now t →
      ∃ u, exec (.failedUntil t) s = .next u ∧ u = { startEvent t s with coc := u.coc, lamp := u.lamp } ∧
        u.coc.state = .idle ∧ u.coc.endReason = .failed ∧ u.coc.failedUntil = none ∧ u.coc.tag = s.coc.tag ∧
        u.coc.recoveries = s.coc.recoveries ∧ u.coc.dropouts = s.coc.dropouts ∧ u.lamp.requested = .dark)

/-- R41: a GRANT of the present claim, for a lane the record may take, is taken: the lane is OWN with the origin record as
owner, its engine starts with the seed of the own number and tag, and the record is PROBING. -/
def Obligations.GrantIsProbed : Prop :=
  ∀ (t : Time) (f : Rx) (l : Lane) (m : Mod) (s : State), s.inReset = false → s.hears f → f.payload.length = 4 →
    (s.coc.state = .claiming ∨ s.coc.state = .queued) → s.coc.onPeer f.sender.toNat → s.coc.claimKind = .new →
    octetAt f.payload 0 = s.coc.tag → octAt f.payload 1 = laneNumber l → octAt f.payload 2 = modCode m →
    octAt f.payload 3 = 0 → (s.lane l).occupancy ≠ .own → (s.lane l).owner = none → (s.lane l).quarantineUntil = none →
    ∃ u, exec (.grant t f) s = .next u ∧
      u = { hunt (startEvent t s) with
            coc := u.coc, lamp := u.lamp, lanes := s.lanes.set l (u.lane l),
            engines := s.engines.set .e0 (u.engine .e0) } ∧
      u.coc.state = .probing ∧ u.coc.onLane f.sender.toNat l ∧ u.coc.answerDeadline = none ∧
      u.coc.silenceDeadline = none ∧ u.coc.tag = s.coc.tag ∧
      (u.lane l).occupancy = .own ∧ (u.lane l).owner = some .origin ∧
      (u.engine .e0).user = some .origin ∧ (u.engine .e0).lane = some l ∧ (u.engine .e0).generator = .running ∧
      (u.engine .e0).genSeed = seedOf s.own s.coc.tag.toNat ∧ (u.engine .e0).genStart = max s.now t ∧
      (u.engine .e0).checker = .settle ∧ (u.engine .e0).checkStart = max s.now t

/-- R39, R40, R46: a WAIT queues the record for 12,000 ms of silence; PROGRESS is noted, and ANSWERED in DIALING connects the
call, with the lamp LIT and the prompt stopped. -/
def Obligations.WaitAndProgressAreNoted : Prop :=
  (∀ (t : Time) (f : Rx) (s : State), s.inReset = false → s.hears f → f.payload.length = 2 →
    s.coc.peer = some f.sender.toNat → octetAt f.payload 0 = s.coc.tag →
    (s.coc.state = .claiming ∨ s.coc.state = .queued) →
    ∃ u, exec (.wait t f) s = .next u ∧ u = { hunt (startEvent t s) with coc := u.coc, lamp := u.lamp } ∧
      u.coc = { s.coc with
                state := .queued, queuePos := some (octAt f.payload 1), answerDeadline := none,
                silenceDeadline := some (max s.now t + ms 12000) } ∧
      (s.coc.state = .claiming → u.lamp.requested = .seek)) ∧
  (∀ (t : Time) (f : Rx) (st : Stage) (s : State), s.inReset = false → s.hears f → f.payload.length = 5 →
    s.coc.peer = some f.sender.toNat → octetAt f.payload 0 = s.coc.tag → octAt f.payload 1 = stageCode st →
    let noted := { s.coc with
      stage := some st, network := some (be24At f.payload 2), answered := s.coc.answered || st == .answered }
    (s.coc.state = .connected ∨ (s.coc.state = .dialing ∧ (st = .dialing ∨ st = .reselecting)) →
      exec (.progress t f) s = .next { hunt (startEvent t s) with coc := noted }) ∧
    (s.coc.state = .dialing → st = .answered →
      ∃ u, exec (.progress t f) s = .next u ∧
        u = { hunt (startEvent t s) with
              coc := { noted with state := .connected }, lamp := u.lamp, csw := u.csw, out := u.out } ∧
        u.lamp.requested = .lit ∧ u.csw.players.s.state = .idle))

/-- R47: RELEASE(FAR-CLEAR) of the uplink ends the call: the lane is given up, the routes are cleared, the record is IDLE,
without a stage (log 12). -/
def Obligations.FarClearEndsTheCall : Prop :=
  ∀ (t : Time) (f : Rx) (l : Lane) (s : State), s.inReset = false → s.hears f → f.payload.length = 2 →
    (s.coc.state = .dialing ∨ s.coc.state = .connected) → s.coc.onLane f.sender.toNat l →
    octetAt f.payload 0 = s.coc.tag → octAt f.payload 1 = 0 →
    (s.lane l).occupancy = .own → (s.lane l).owner = some .origin →
    ∃ u, exec (.releaseFromUplink t f) s = .next u ∧
      u = { hunt (startEvent t s) with
            coc := u.coc, lamp := u.lamp, csw := u.csw, lanes := s.lanes.set l (u.lane l), engines := u.engines } ∧
      u.coc.state = .idle ∧ u.coc.endReason = .farClear ∧ u.coc.path = none ∧ u.coc.stage = none ∧
      u.coc.tag = s.coc.tag ∧ u.coc.recoveries = s.coc.recoveries ∧ u.lamp.requested = .dark ∧
      (u.lane l).occupancy = .busy ∧ (u.lane l).owner = none ∧ (u.lane l).supervised = false ∧
      u.csw.speaker.owner ≠ some .origin ∧ (u.csw.laneTx.get l).owner ≠ some .origin

/-! ## Channel Arbiter (04) -/

/-- R61, R64: a CLAIM NEW without a record of its own at the station is refused, or queued at the tail with WAIT. -/
def Obligations.NewClaimIsRefusedOrQueued : Prop :=
  ∀ (t : Time) (f : Rx) (s : State), s.inReset = false → s.hears f → f.payload.length = 3 → octAt f.payload 1 = 0 →
    s.svc.test = none → s.band.dupFault = false →
    (∀ e ∈ s.claims, e.origin ≠ f.sender.toNat) → (∀ m c, s.car m = some c → c.origin ≠ f.sender.toNat) →
    let answer := fun r => exec (.claimNew t f) s =
      .next (handOver (refuseFrame f.sender.toNat (octetAt f.payload 0) r) (hunt (startEvent t s)))
    (s.straps.offer = false ∨ s.anyServiceable = false → answer .noChannel) ∧
    (s.straps.offer = true → s.anyServiceable = true → s.supply.state = .low → answer .lowSupply) ∧
    (s.straps.offer = true → s.anyServiceable = true → s.supply.state ≠ .low → s.claims.length = 6 →
      answer .queueFull) ∧
    (s.straps.offer = true → s.anyServiceable = true → s.supply.state ≠ .low → s.claims.length < 6 →
      (s.claims ≠ [] ∨ chooseModule s = none) →
      exec (.claimNew t f) s =
        .next
          (offerSync (startEvent t s)
            (handOver (waitFrame f.sender.toNat (octetAt f.payload 0) (s.claims.length + 1))
              { hunt (startEvent t s) with
                claims :=
                  s.claims ++
                    [{ origin := f.sender.toNat, tag := octetAt f.payload 0, loc := false,
                       mask := some (maskOf (octetAt f.payload 2)), arrivedAt := max s.now t,
                       expiresAt := max s.now t + ms 30000, lastWait := some (max s.now t) }] })))

/-- R64, R65: with an empty queue, a grantable module and a lane, the CLAIM NEW is granted: a carriage record stands in the
module's slot, the module is linked, the lane is OWN, the slot's engine probes it, and GRANT is handed over. -/
def Obligations.NewClaimIsGranted : Prop :=
  ∀ (t : Time) (f : Rx) (m : Mod) (l : Lane) (s : State), s.inReset = false → s.hears f → f.payload.length = 3 →
    octAt f.payload 1 = 0 → s.svc.test = none → s.band.dupFault = false → s.claims = [] →
    (∀ k c, s.car k = some c → c.origin ≠ f.sender.toNat) → s.straps.offer = true → s.supply.state ≠ .low →
    (s.mod m).state = .ready → chooseModule s = some m → chooseLane (maskOf (octetAt f.payload 2)) s = some l →
    ∃ u, exec (.claimNew t f) s = .next u ∧
      u = { startEvent t s with
            carriages := s.carriages.set m (u.car m), modules := s.modules.set m (u.mod m),
            lanes := s.lanes.set l (u.lane l),
            engines := s.engines.set (engineOf (.carriage m)) (u.engine (engineOf (.carriage m))),
            band := u.band, counters := u.counters, sched := u.sched } ∧
      u.car m = some
        { newCarriage f.sender.toNat (octetAt f.payload 0) .peer (some (maskOf (octetAt f.payload 2))) with
          lane := some l, connectDeadline := some (max s.now t + ms 1000) } ∧
      u.mod m = { s.mod m with link := true, pendingOrder := none } ∧
      (u.lane l).occupancy = .own ∧ (u.lane l).owner = some (.carriage m) ∧
      (u.engine (engineOf (.carriage m))).genSeed = seedOf f.sender.toNat (octetAt f.payload 0).toNat ∧
      (u.engine (engineOf (.carriage m))).generator = .running ∧
      (u.engine (engineOf (.carriage m))).checker = .settle ∧
      u.counters.callsGranted = satInc s.counters.callsGranted ∧
      u.band = (handOver (grantFrame f.sender.toNat (octetAt f.payload 0) l m false) (hunt s)).band

/-- R58, R65, R70 to R74: a waiting remote claim is told its position again after 5,000 ms; it leaves the queue by its origin's
RELEASE, without an answer, or at 30,000 ms, with REFUSE(EXPIRED), and the others keep their order. The head is served when a
lane comes free, when a module becomes grantable and when a stalled head leaves: it is granted, a remote one with a lane of
its mask, a local one with its first dial attempt (answered before the attempt, log 9). -/
def Obligations.ClaimsWaitAndLeave : Prop :=
  (∀ (t w : Time) (o : Station) (tag : Tag) (e : ClaimEntry) (s : State), s.inReset = false →
    s.claimOf o tag = some e → e.loc = false → e.lastWait = some w → w + ms 5000 ≤ max s.now t →
    exec (.waitRefresh t o tag) s =
      .next
        (handOver (waitFrame o tag (positionOf s.claims o tag))
          { startEvent t s with
            claims :=
              s.claims.map fun x => if x.names o tag then { x with lastWait := some (max s.now t) } else x })) ∧
  (∀ (t : Time) (s : State), s.inReset = false → chooseModule s = none → s.coc.state = .idle →
    (∀ f : Rx, s.hears f → f.payload.length = 2 → s.carriageOf f.sender.toNat (octetAt f.payload 0) = none →
      s.queued f.sender.toNat (octetAt f.payload 0) = true →
      let left := { hunt (startEvent t s) with
        claims := s.claims.filter fun e => !e.names f.sender.toNat (octetAt f.payload 0) }
      (octAt f.payload 1 = 5 ∨ octAt f.payload 1 = 6 →
        exec (.releaseFromOrigin t f) s = .next (offerSync (startEvent t s) left)) ∧
      (octAt f.payload 1 = 7 → exec (.releaseRestart t f) s = .next (offerSync (startEvent t s) left))) ∧
    (∀ (o : Station) (tag : Tag) (e : ClaimEntry), s.claimOf o tag = some e → e.loc = false →
      e.expiresAt ≤ max s.now t →
      exec (.queueEntryExpiry t o tag) s =
        .next
          (offerSync (startEvent t s)
            (handOver (refuseFrame o tag .expired)
              { startEvent t s with claims := s.claims.filter fun x => !x.names o tag })))) ∧
  ∀ (t : Time) (m : Mod) (k : Lane) (e : ClaimEntry) (rest : List ClaimEntry) (mask : LaneMask) (s : State),
    s.inReset = false → s.waitsForCandidate = false → (∀ n, n ≠ m → (s.mod n).grantable = false) →
    -- the remote claim at the head is granted module `m`, as it stands in `r`, and lane `k` of `lanes`
    let granted := fun (b : Band) (lanes : PerLane LaneEntry) (r : Module) (u : State) =>
      u = { startEvent t s with
            claims := rest, coc := (tellPosition { s with claims := rest }).coc, carriages := s.carriages.set m (u.car m),
            modules := s.modules.set m { r with link := true, pendingOrder := none }, lanes := lanes.set k (u.lane k),
            engines := s.engines.set (engineOf (.carriage m)) (u.engine (engineOf (.carriage m))),
            band := u.band, counters := u.counters, sched := u.sched } ∧
        u.car m = some
          { newCarriage e.origin e.tag .peer (some mask) with
            lane := some k, connectDeadline := some (max s.now t + ms 1000) } ∧
        (u.lane k).occupancy = .own ∧ (u.lane k).owner = some (.carriage m) ∧
        (u.engine (engineOf (.carriage m))).generator = .running ∧
        (u.engine (engineOf (.carriage m))).genSeed = seedOf e.origin e.tag.toNat ∧
        u.counters.callsGranted = satInc s.counters.callsGranted ∧
        u.band = (handOver (grantFrame e.origin e.tag k m false) { s with band := b }).band
    -- a lane comes free
    (∀ (l : Lane) (q : Time), s.claims = e :: rest → e.loc = false → e.mask = some mask →
      chooseModule s = some m → (s.mod m).state = .ready → (s.lane l).occupancy = .busy → (s.lane l).owner = none →
      (s.lane l).quarantineUntil = none → (s.lane l).quietSince = some q → q + ms 300 ≤ max s.now t →
      let lanes := s.lanes.set l { s.lane l with occupancy := .free }
      chooseLane mask { s with lanes := lanes } = some k →
      ∃ u, exec (.laneFree t l) s = .next u ∧ granted s.band lanes (s.mod m) u) ∧
    -- the head leaves, and the next one is served
    (∀ (f : Rx) (gone : ClaimEntry), s.hears f → f.payload.length = 2 → (octAt f.payload 1 = 5 ∨ octAt f.payload 1 = 6) →
      s.carriageOf f.sender.toNat (octetAt f.payload 0) = none → s.claims = gone :: e :: rest →
      gone.names f.sender.toNat (octetAt f.payload 0) = true →
      (∀ x ∈ e :: rest, x.names f.sender.toNat (octetAt f.payload 0) = false) → e.loc = false → e.mask = some mask →
      chooseModule s = some m → (s.mod m).state = .ready → chooseLane mask s = some k →
      ∃ u, exec (.releaseFromOrigin t f) s = .next u ∧ granted (hunt s).band s.lanes (s.mod m) u) ∧
    -- a module becomes grantable
    (∀ (code : BitVec 24) (o : OrderInFlight), s.claims = e :: rest → (s.mod m).power = true → (s.mod m).fitted = true →
      (s.mod m).state = .selecting → (s.mod m).inFlight = some o → o.kind = .select → o.code = code.toNat →
      (s.mod m).link = false → (s.mod m).pendingOrder = none → codeUsable (s.mod m).table code.toNat = true →
      betterNet (s.mod m).table code.toNat (qualityOf (s.mod m).table code.toNat) = none →
      (∀ d, (s.mod m).lastScan = some d → max s.now t < d + ms 300000) →
      let ready := { s.mod m with
        timeouts := 0, selected := some code.toNat, inFlight := none, state := .ready, rescanDue := none }
      (e.loc = false → e.mask = some mask → chooseLane mask s = some k →
        ∃ u, exec (.selected t m code 0) s = .next u ∧ granted s.band s.lanes ready u) ∧
      (e.loc = true → s.coc.state = .queued → s.onLocalPath = true →
        ∃ u, exec (.selected t m code 0) s = .next u ∧
          u = { startEvent t s with
                claims := rest, coc := u.coc, lamp := u.lamp, csw := u.csw, sched := u.sched,
                carriages := s.carriages.set m (u.car m), modules := s.modules.set m (u.mod m),
                counters := { s.counters with callsGranted := satInc s.counters.callsGranted },
                out := [.order m .dial 0] } ∧
          u.coc.state = .dialing ∧ u.coc.path = s.coc.path.map (fun p => { p with module := some m }) ∧
          u.coc.stage = some .dialing ∧ u.coc.network = some code.toNat ∧ u.coc.searchDeadline = none ∧
          u.coc.tag = s.coc.tag ∧
          u.car m = some
            { newCarriage s.own e.tag .loc none with
              tried := [code.toNat], network := some code.toNat, lastStage := some .dialing } ∧
          u.mod m =
            { ready with
              link := true, pendingOrder := none, state := .dialing, callInProgress := true,
              inFlight := some { kind := .dial, deadline := max s.now t + ms 10000, code := 0 } }))

/-! ## Carried calls (05) -/

/-- R60, R80, R85, R90, R96, R138: a CONNECT with outcome PASS for the lane held notes that the origin's check has passed. When
the own check has passed before, the record joins: the lane is supervised and the routes are set; a new call makes its first
dial attempt and tells its network by PROGRESS, a rejoin returns to the state it waited in and tells its stage again. -/
def Obligations.ConnectNotesTheOriginsCheck : Prop :=
  ∀ (t : Time) (f : Rx) (m : Mod) (l : Lane) (c : Carriage) (s : State), s.inReset = false → s.hears f →
    f.payload.length = 3 → s.carriageOf f.sender.toNat (octetAt f.payload 0) = some m → s.car m = some c →
    c.state = .granted → c.lane = some l → octAt f.payload 1 = laneNumber l → octAt f.payload 2 = 0 →
    (c.ownPassed = false →
      exec (.connect t f) s =
        .next { hunt (startEvent t s) with carriages := s.carriages.set m (some { c with originPassed := true }) }) ∧
    (c.ownPassed = true → (s.lane l).owner = some (.carriage m) → (s.lane l).carrierA = true →
      let joined := fun (u : State) =>
        u.lane l = { s.lane l with supervised := true, gapStart := none } ∧
          (u.csw.modTx.get m).base = some (.laneRx l .a) ∧ (u.csw.laneTx.get l).base = some (.modRx m) ∧
          ((s.csw.modTx.get m).base ≠ some (.laneRx l .a) →
            (u.csw.modTx.get m).holdUntil = some (max s.now t + ms 600))
      (∀ code, c.kind = .peer → c.rejoinGrant = false → c.tried = [] → (s.mod m).inFlight = none →
        dialChoice (s.mod m).table (s.mod m).selected [] = .dial code →
        ∃ u, exec (.connect t f) s = .next u ∧
          u = { startEvent t s with
                carriages := s.carriages.set m (u.car m), modules := s.modules.set m (u.mod m),
                lanes := s.lanes.set l (u.lane l), csw := u.csw, band := u.band, counters := u.counters,
                sched := u.sched, out := [.order m .dial 0] } ∧
          joined u ∧
          u.car m = some
            { c with originPassed := true, connectDeadline := none, state := .dialing, tried := [code],
                     network := some code, lastStage := some .dialing } ∧
          u.mod m =
            { s.mod m with
              state := .dialing, callInProgress := true, rescanDue := none,
              inFlight := some { kind := .dial, deadline := max s.now t + ms 10000, code := 0 } } ∧
          u.band = (handOver (progressFrame c.origin c.tag (oct 0) code) (hunt s)).band) ∧
      ∀ back st code, c.rejoinGrant = true → c.resume = some back → c.lastStage = some st → c.network = some code →
        c.answered = false →
        ∃ u, exec (.connect t f) s = .next u ∧
          u = { startEvent t s with
                carriages := s.carriages.set m (u.car m), lanes := s.lanes.set l (u.lane l), csw := u.csw,
                band := u.band, counters := u.counters, out := u.out } ∧
          joined u ∧
          u.car m = some
            { c with originPassed := true, connectDeadline := none, rejoinDeadline := none, rejoinGrant := false,
                     state := back.state, resume := none } ∧
          ((s.csw.players.get (modPlayer m)).state ≠ .idle →
            (s.csw.players.get (modPlayer m)).prompt = some .holdLine →
            (u.csw.players.get (modPlayer m)).state = .idle ∧ (u.csw.modTx.get m).overlay = none) ∧
          u.band = (handOver (progressFrame c.origin c.tag (oct (stageCode st)) code) (hunt s)).band)

/-- R81: when the connect deadline passes, the lane is quarantined and given up, and another free lane of the mask is granted,
the first two times. -/
def Obligations.ConnectDeadlineRegrants : Prop :=
  ∀ (t d : Time) (m : Mod) (l k : Lane) (c : Carriage) (mask : LaneMask) (s : State), s.inReset = false →
    s.car m = some c → c.state = .granted → c.connectDeadline = some d → d ≤ max s.now t → c.lane = some l →
    c.mask = some mask → c.regrants < 2 → (s.lane l).occupancy = .own → (s.lane l).owner = some (.carriage m) →
    chooseLane mask s = some k →
    ∃ u, exec (.connectDeadline t m) s = .next u ∧
      u = { startEvent t s with
            carriages := s.carriages.set m (u.car m), lanes := (s.lanes.set l (u.lane l)).set k (u.lane k),
            engines := s.engines.set (engineOf (.carriage m)) (u.engine (engineOf (.carriage m))), csw := u.csw,
            band := u.band, counters := u.counters } ∧
      u.car m = some
        { c with lane := some k, regrants := c.regrants + 1, ownPassed := false, originPassed := false,
                 connectDeadline := some (max s.now t + ms 1000) } ∧
      (u.lane l).occupancy = .busy ∧ (u.lane l).owner = none ∧
      (∃ q, (u.lane l).quarantineUntil = some q ∧ max s.now t + ms 10000 ≤ q) ∧
      (u.lane k).occupancy = .own ∧ (u.lane k).owner = some (.carriage m) ∧
      u.band = (handOver (grantFrame c.origin c.tag k m c.rejoinGrant) s).band

/-- R88: an attempt that has rung for 60,000 ms is hung up and its network penalised for 60,000 ms. -/
def Obligations.RingLimitHangsUp : Prop :=
  ∀ (t d : Time) (m : Mod) (code : Code) (c : Carriage) (s : State), s.inReset = false → s.car m = some c →
    c.state = .ringing → c.ringDeadline = some d → d ≤ max s.now t → c.network = some code → (s.mod m).link = true →
    exec (.ringDeadline t m) s =
      .next
        (offerSync (startEvent t s)
          { startEvent t s with
            carriages :=
              s.carriages.set m (some { c with state := .dialing, ringDeadline := none, ringHangup := true }),
            modules :=
              s.modules.set m
                { s.mod m with
                  table := (s.mod m).table.map fun n =>
                    if n.code = code then { n with penalisedUntil := some (max s.now t + ms 60000) } else n,
                  state := .hangingUp, pendingOrder := none, progressDeadline := none, rescanDue := none,
                  inFlight := some { kind := .hangup, deadline := max s.now t + ms 5000, code := 0 } },
            out := [.order m .hangup 0] })

/-- R94, R97: when the rejoin window ends without a completed rejoin, a rejoin GRANTED is told RELEASE(LANE-LOST) and gives its
lane up. With a call in progress the record is CLEARING and the module's call is hung up, unless a HANGUP is in flight; with none
the record is removed. That the ring deadline and the resume state are cleared with it is the model's choice (log 41). -/
def Obligations.RejoinWindowEnds : Prop :=
  ∀ (t d : Time) (m : Mod) (c : Carriage) (s : State), s.inReset = false → s.car m = some c →
    (c.state = .awaitRejoin ∨ (c.state = .granted ∧ c.rejoinGrant = true)) →
    c.rejoinDeadline = some d → d ≤ max s.now t →
    (∀ l, c.lane = some l → (s.lane l).occupancy = .own ∧ (s.lane l).owner = some (.carriage m)) →
    let told := if c.state = .granted then (handOver (releaseFrame c.origin c.tag .laneLost) s).band else s.band
    let ended := fun (u : State) =>
      u = { startEvent t s with
            carriages := s.carriages.set m (u.car m), modules := s.modules.set m (u.mod m), lanes := u.lanes,
            engines := u.engines, csw := u.csw, band := told, counters := u.counters, out := u.out, sched := u.sched } ∧
        (u.engine (engineOf (.carriage m))).user = none ∧ (c.lane = none → u.lanes = s.lanes) ∧
        ∀ l, c.lane = some l →
          u.lanes = s.lanes.set l
            { s.lane l with
              occupancy := .busy, owner := none, supervised := false, gapStart := (u.lane l).gapStart,
              quietSince :=
                if (s.lane l).carrierA = true ∨ (s.lane l).carrierB = true then none else some (max s.now t) }
    ((s.mod m).callInProgress = true →
      ∃ u, exec (.rejoinDeadline t m) s = .next u ∧ ended u ∧
        u.car m = some
          { c with state := .clearing, lane := none, rejoinGrant := false, connectDeadline := none, rejoinDeadline := none,
                   ringDeadline := none, resume := none } ∧
        ((s.mod m).flying .hangup = false →
          (u.mod m).state = .hangingUp ∧ (u.mod m).flying .hangup = true ∧ Output.order m .hangup 0 ∈ u.out) ∧
        ((s.mod m).flying .hangup = true → u.mod m = s.mod m ∧ Output.order m .hangup 0 ∉ u.out)) ∧
    ((s.mod m).callInProgress = false → s.calm →
      ∃ u, exec (.rejoinDeadline t m) s = .next u ∧ ended u ∧ u.car m = none ∧ (u.mod m).link = false)

/-- R96: a CLAIM REJOIN for a record that waits for its origin is granted a lane of the mask, with the rejoin flag. -/
def Obligations.RejoinIsGranted : Prop :=
  ∀ (t : Time) (f : Rx) (m : Mod) (l : Lane) (c : Carriage) (s : State), s.inReset = false → s.hears f →
    f.payload.length = 3 → octAt f.payload 1 = 1 → s.svc.test = none →
    s.carriageOf f.sender.toNat (octetAt f.payload 0) = some m → s.car m = some c → c.state = .awaitRejoin →
    chooseLane (maskOf (octetAt f.payload 2)) s = some l →
    ∃ u, exec (.claimRejoin t f) s = .next u ∧
      u = { startEvent t s with
            carriages := s.carriages.set m (u.car m), lanes := s.lanes.set l (u.lane l),
            engines := s.engines.set (engineOf (.carriage m)) (u.engine (engineOf (.carriage m))),
            band := u.band, counters := u.counters } ∧
      u.car m = some
        { c with state := .granted, lane := some l, mask := some (maskOf (octetAt f.payload 2)), rejoinGrant := true,
                 regrants := 0, ownPassed := false, originPassed := false,
                 connectDeadline := some (max s.now t + ms 1000) } ∧
      (u.lane l).occupancy = .own ∧ (u.lane l).owner = some (.carriage m) ∧
      u.band = (handOver (grantFrame c.origin c.tag l m true) (hunt s)).band

/-! ## Radio Module Controller (06) -/

/-- R99, R104, R106, R108, R112, R116: the octets of a link are its reports and the messages that are discarded (that a command
brings all octets of a message is the model's form, log 24); octets heard before the power last came on are not read; discarded messages are counted, and the reports of a stream act as
their own commands do; then, what these reports and times make of their module. -/
def Obligations.ModuleReportsAndTimes : Prop :=
  (∀ (last now : Time),
    let stream := fun (octets : List Octet) => octets.map fun o => ({ heardAt := now, octet := o } : LinkOctet)
    -- a message is taken whole, whatever came before its start octet; a well-formed one is its report
    (∀ (noise p : List Octet) (kind : Octet), (170 : Octet) ∉ noise → p.length < 256 →
      linkEvents .hunting last now (stream (noise ++ [170, kind, oct p.length] ++ p)) = [messageEvent kind p]) ∧
    (∀ r : Report, (∀ e, r = .scanList e → e.length ≤ 50) →
      linkEvents .hunting last now (stream (reportOctets r)) = [.report r]) ∧
    (∀ (kind : Octet) (p : List Octet), messageEvent kind p = .discarded ↔ linkReport kind p = false) ∧
    -- a message that stops short for 20 ms is discarded
    ∀ (kind n : Octet) (p : List Octet), p.length < n.toNat →
      linkEvents .hunting last (now + ms 20) (stream ([170, kind, n] ++ p)) = [.discarded]) ∧
  (∀ (t : Time) (m : Mod) (hunted message : List LinkOctet) (s : State), s.inReset = false →
    let octets := hunted ++ message
    -- the octets heard since the power last came on are read
    let events := linkEvents .hunting 0 (max s.now t) (octets.filter fun o => decide ((s.mod m).poweredAt ≤ o.heardAt))
    let counted := { startEvent t s with
      modules := s.modules.set m { s.mod m with linkErrors := satInc (s.mod m).linkErrors } }
    ((s.mod m).power = true → events = [.discarded] →
      exec (.linkMessageDiscarded t m hunted message) s = .next counted ∧ exec (.linkMessageTimeout t m octets) s = .next counted) ∧
    ((s.mod m).power = false →
      exec (.linkMessageDiscarded t m hunted message) s = .next (startEvent t s) ∧
        exec (.linkMessageTimeout t m octets) s = .next (startEvent t s)) ∧
    (events = [] → exec (.linkMessageTimeout t m octets) s = .next (startEvent t s)) ∧
    ((∀ o ∈ octets, o.heardAt < (s.mod m).poweredAt) →
      exec (.linkMessageDiscarded t m hunted message) s = .next (startEvent t s)) ∧
    exec (.linkMessageTimeout t m octets) s = exec (.linkMessageDiscarded t m hunted message) s ∧
    ∀ report, events = [.report report] →
      exec (.linkMessageDiscarded t m hunted message) s =
        match report with
        | .ready => exec (.ready t m) s
        | .scanList entries => exec (.scanList t m entries) s
        | .selected code result => exec (.selected t m code result) s
        | .accepted => exec (.accepted t m) s
        | .rejected => exec (.rejected t m) s
        | .ringing => exec (.ringing t m) s
        | .answered => exec (.answered t m) s
        | .ended reason => exec (.ended t m reason) s
        | .aborted => exec (.aborted t m) s
        | .quality q => exec (.quality t m q) s
        | .fault => exec (.fault t m) s) ∧
  (∀ (t : Time) (m : Mod) (s : State), s.inReset = false →
    let becomes := fun (r : Module) (out : List Output) =>
      (.next (offerSync (startEvent t s) { startEvent t s with modules := s.modules.set m r, out := out }) :
        Host.Outcome State Fault Refusal)
    let scan : OrderInFlight := { kind := .scan, deadline := max s.now t + ms 20000, code := 0 }
    let hangup : OrderInFlight := { kind := .hangup, deadline := max s.now t + ms 5000, code := 0 }
    -- READY in POWERING: the start-up scan
    ((s.mod m).power = true → (s.mod m).state = .powering →
      exec (.ready t m) s =
        becomes
          { s.mod m with
            timeouts := 0, poweringDeadline := none, powerCycles := 0, state := .scanning,
            lastScan := some (max s.now t), rescanDue := none, inFlight := some scan }
          [.order m .scan 0]) ∧
    -- ACCEPTED: the progress deadline
    ((s.mod m).power = true → (s.mod m).flying .dial = true →
      exec (.accepted t m) s =
        becomes
          { s.mod m with timeouts := 0, inFlight := none, progressDeadline := some (max s.now t + ms 60000) } []) ∧
    -- ABORTED for a module in a carriage, with nothing pending
    ((s.mod m).power = true → (s.mod m).flying .abort = true → (s.mod m).pendingOrder = none → (s.mod m).link = true →
      exec (.aborted t m) s = becomes { s.mod m with timeouts := 0, inFlight := none, state := .ready } []) ∧
    -- QUALITY of the selected network of a module in a carriage
    (∀ (c : Code) (q : Octet), (s.mod m).power = true → (s.mod m).selected = some c → netOf (s.mod m).table c ≠ none →
      (s.mod m).link = true →
      exec (.quality t m q) s =
        becomes { s.mod m with timeouts := 0, table := setQuality (s.mod m).table c (min q.toNat 63) } []) ∧
    -- the no-service rescan
    (∀ d, (s.mod m).state = .noService → (s.mod m).rescanDue = some d → d ≤ max s.now t →
      exec (.rescanDue t m) s =
        becomes
          { s.mod m with
            state := .scanning, lastScan := some (max s.now t), rescanDue := none, inFlight := some scan }
          [.order m .scan 0]) ∧
    -- the refresh scan of an idle READY module
    (∀ d, (s.mod m).state = .ready → (s.mod m).link = false → (s.mod m).inFlight = none → s.supply.state ≠ .low →
      (s.mod m).lastScan = some d → d + ms 300000 ≤ max s.now t →
      exec (.refreshDue t m) s =
        becomes
          { s.mod m with
            state := .refreshing, lastScan := some (max s.now t), rescanDue := none, inFlight := some scan }
          [.order m .scan 0]) ∧
    -- the progress deadline in DIALING
    (∀ d, (s.mod m).state = .dialing → (s.mod m).progressDeadline = some d → d ≤ max s.now t →
      exec (.progressDeadline t m) s =
        becomes
          { s.mod m with
            state := .hangingUp, pendingOrder := none, progressDeadline := none, rescanDue := none,
            inFlight := some hangup }
          [.order m .hangup 0]) ∧
    -- the end of a penalty under a carriage link
    (∀ (c : Code) (n : Net) (d : Time), netOf (s.mod m).table c = some n → n.penalisedUntil = some d →
      d ≤ max s.now t → (s.mod m).link = true →
      exec (.penaltyEnd t m c) s =
        becomes
          { s.mod m with
            table := (s.mod m).table.map fun x => if x.code = c then { x with penalisedUntil := none } else x }
          []))

/-- R107, R109, R110, R115: a SCAN-LIST gives the new table, and an idle module selects its first usable network or is without
service; SELECTED ok selects the network, and the module of a carriage dials while an idle one is READY. -/
def Obligations.ScanAndSelectionEnd : Prop :=
  (∀ (t : Time) (m : Mod) (entries : List ScanEntry) (s : State), s.inReset = false → (s.mod m).power = true →
    (s.mod m).state = .scanning → (s.mod m).link = false → (s.mod m).flying .scan = true →
    (s.mod m).pendingOrder = none → (s.mod m).selected = none →
    let table := scanTable entries (s.mod m).table
    let becomes := fun (r : Module) (out : List Output) =>
      (.next (offerSync (startEvent t s) { startEvent t s with modules := s.modules.set m r, out := out }) :
        Host.Outcome State Fault Refusal)
    (∀ c, firstUsable table = some c →
      exec (.scanList t m entries) s =
        becomes
          { s.mod m with
            timeouts := 0, table := table, state := .selecting, rescanDue := none,
            inFlight := some { kind := .select, deadline := max s.now t + ms 10000, code := c } }
          [.order m .select c]) ∧
    (firstUsable table = none →
      exec (.scanList t m entries) s =
        becomes
          { s.mod m with
            timeouts := 0, table := table, state := .noService, inFlight := none,
            rescanDue := some (max s.now t + ms 30000) }
          [])) ∧
  (∀ (t : Time) (m : Mod) (code : BitVec 24) (o : OrderInFlight) (s : State), s.inReset = false →
    (s.mod m).power = true → (s.mod m).inFlight = some o → o.kind = .select → o.code = code.toNat →
    ((s.mod m).link = true →
      exec (.selected t m code 0) s =
        .next
          (offerSync (startEvent t s)
            { startEvent t s with
              modules :=
                s.modules.set m
                  { s.mod m with
                    timeouts := 0, selected := some code.toNat, state := .dialing, callInProgress := true,
                    rescanDue := none,
                    inFlight := some { kind := .dial, deadline := max s.now t + ms 10000, code := 0 } },
              out := [.order m .dial 0] })) ∧
    ((s.mod m).link = false → (s.mod m).state = .selecting → (s.mod m).pendingOrder = none → s.calm →
      codeUsable (s.mod m).table code.toNat = true →
      betterNet (s.mod m).table code.toNat (qualityOf (s.mod m).table code.toNat) = none →
      (∀ d, (s.mod m).lastScan = some d → max s.now t < d + ms 300000) →
      exec (.selected t m code 0) s =
        .next
          (offerSync (startEvent t s)
            { startEvent t s with
              modules :=
                s.modules.set m
                  { s.mod m with
                    timeouts := 0, selected := some code.toNat, inFlight := none, state := .ready,
                    rescanDue := none } })))

/-- R86, R116: RINGING and ANSWERED of a carried call move the module and its record on, and a PEER origin is told by
PROGRESS. -/
def Obligations.CallProgressIsReported : Prop :=
  ∀ (t : Time) (m : Mod) (c : Carriage) (code : Code) (s : State), s.inReset = false → (s.mod m).power = true →
    (s.mod m).state = .dialing → (s.mod m).link = true → s.car m = some c → c.kind = .peer → c.state = .dialing →
    c.ringHangup = false → c.network = some code →
    (exec (.ringing t m) s =
      .next
        (offerSync (startEvent t s)
          (handOver (progressFrame c.origin c.tag (oct 2) code)
            { startEvent t s with
              modules := s.modules.set m
                { s.mod m with timeouts := 0, state := .ringing, inFlight := none, progressDeadline := none },
              carriages := s.carriages.set m
                (some { c with state := .ringing, ringDeadline := some (max s.now t + ms 60000),
                               lastStage := some .ringing }) }))) ∧
    (s.csw.ident.running = none → s.csw.players.get (modPlayer m) = Player.idle →
      ∃ u, exec (.answered t m) s = .next u ∧
        u = { startEvent t s with
              modules := s.modules.set m
                { s.mod m with timeouts := 0, state := .inCall, inFlight := none, progressDeadline := none },
              carriages := s.carriages.set m
                (some { c with state := .connected, answered := true, ringDeadline := none,
                               lastStage := some .answered }),
              csw := u.csw, band := u.band, counters := u.counters, sched := u.sched } ∧
        u.band = (handOver (progressFrame c.origin c.tag (oct 3) code) s).band ∧
        u.csw.ident.running =
          some { dest := m, sectionCode := s.straps.sectionCode, origin := c.origin, carrier := s.own } ∧
        u.csw.ident.digit = 1 ∧ u.csw.ident.inTone = true ∧ (u.csw.modTx.get m).overlay = some .ident)

/-- R83, R87, R89, R97, R115: when an attempt fails before answer its network is penalised and the next one is named to the
PEER origin as RESELECTING, by SELECT or DIAL, up to the third. When there is none left, or the far party clears or the network
drops the call after answer, the PEER origin is told the reason by RELEASE, the record is removed, its lane is given up without
a quarantine, and the module is free again. A RELEASE of the origin removes the record without a frame, and a call in progress
is ended with HANGUP. -/
def Obligations.CallEndsAreReported : Prop :=
  ∀ (t : Time) (m : Mod) (c : Carriage) (reason : Octet) (s : State), s.inReset = false → (s.mod m).power = true →
    (s.mod m).link = true → s.car m = some c → c.kind = .peer → s.calm →
    let gone := fun (b : Band) (u : State) =>
      u = { startEvent t s with
            modules := s.modules.set m (u.mod m), carriages := s.carriages.set m none, csw := u.csw,
            lanes := u.lanes, engines := u.engines, band := u.band, counters := u.counters, sched := u.sched, out := u.out } ∧
        u.band = b ∧ (u.mod m).link = false ∧ (u.engine (engineOf (.carriage m))).user = none ∧
        (c.lane = none → u.lanes = s.lanes) ∧
        ∀ l, c.lane = some l → (s.lane l).occupancy = .own → (s.lane l).owner = some (.carriage m) →
          u.lanes = s.lanes.set l
            { s.lane l with
              occupancy := .busy, owner := none, supervised := false, gapStart := (u.lane l).gapStart,
              quietSince :=
                if (s.lane l).carrierA = true ∨ (s.lane l).carrierB = true then none else some (max s.now t) }
    let told := fun (why : ReleaseReason) (u : State) =>
      gone (handOver (releaseFrame c.origin c.tag why) s).band u ∧ (u.mod m).callInProgress = false
    -- an attempt fails before answer
    (∀ i : Instr, (i = .rejected t m ∧ (s.mod m).flying .dial = true) ∨
        (i = .ended t m reason ∧ ((s.mod m).state = .dialing ∨ (s.mod m).state = .ringing)) →
      (c.tried.length = 3 → ∃ u, exec i s = .next u ∧ told .allNetworksFailed u) ∧
      ∀ n, c.tried ≠ [] → c.tried.length < 3 → c.network = some n → (c.state = .dialing ∨ c.state = .ringing) →
        let table := penaliseNet (s.mod m).table n (max s.now t + ms 60000)
        let again := fun (code : Code) (order : OrderKind) (arg : Code) (r : Module) =>
          ∃ u, exec i s = .next u ∧
            u = { startEvent t s with
                  modules := s.modules.set m r,
                  carriages :=
                    s.carriages.set m
                      (some
                        { c with state := .dialing, ringDeadline := none, ringHangup := false, tried := c.tried ++ [code],
                                 network := some code, lastStage := some .reselecting }),
                  band := u.band, counters := u.counters, sched := u.sched, out := [.order m order arg] } ∧
            u.band = (handOver (progressFrame c.origin c.tag (oct 1) code) s).band
        (∀ code, dialChoice table (s.mod m).selected c.tried = .dial code →
          again code .dial 0
            { s.mod m with
              timeouts := 0, table := table, progressDeadline := none, state := .dialing, callInProgress := true,
              rescanDue := none, inFlight := some { kind := .dial, deadline := max s.now t + ms 10000, code := 0 } }) ∧
        (∀ code, dialChoice table (s.mod m).selected c.tried = .select code →
          again code .select code
            { s.mod m with
              timeouts := 0, table := table, progressDeadline := none, state := .selecting, callInProgress := false,
              rescanDue := none,
              inFlight := some { kind := .select, deadline := max s.now t + ms 10000, code := code } }) ∧
        (dialChoice table (s.mod m).selected c.tried = .impossible →
          ∃ u, exec i s = .next u ∧ told .allNetworksFailed u)) ∧
    -- the call ends after answer
    ((s.mod m).state = .inCall → reason = 1 → ∃ u, exec (.ended t m reason) s = .next u ∧ told .farClear u) ∧
    ((s.mod m).state = .inCall → reason ≠ 1 →
      ∃ u, exec (.ended t m reason) s = .next u ∧ told .netDrop u ∧
        ∀ n, c.network = some n → (u.mod m).table = penaliseNet (s.mod m).table n (max s.now t + ms 60000)) ∧
    -- the origin gives the call up
    ∀ f : Rx, s.hears f → f.payload.length = 2 → (octAt f.payload 1 = 5 ∨ octAt f.payload 1 = 6) →
      s.carriageOf f.sender.toNat (octetAt f.payload 0) = some m → c.state ≠ .clearing →
      ∃ u, exec (.releaseFromOrigin t f) s = .next u ∧ gone (hunt s).band u ∧
        ((s.mod m).callInProgress = true →
          Output.order m .hangup 0 ∈ u.out ∧
            u.mod m =
              { s.mod m with
                link := false, pendingOrder := none, progressDeadline := none, rescanDue := none, state := .hangingUp,
                inFlight := some { kind := .hangup, deadline := max s.now t + ms 5000, code := 0 } }) ∧
        ((s.mod m).callInProgress = false → Output.order m .hangup 0 ∉ u.out)

/-- R93, R97, R104, R105, R106: FAULT, a READY in any state but POWERING, the powering deadline, a HANGUP timeout and the third
timeout of any order power-cycle the module: it is switched off, its table forgotten and the cycle counted; after 1,000 ms, or
600,000 ms from the third cycle, it is powered again. A carriage record of the module is removed with its link, its engine, its
lane and its routes: a PEER origin is told RELEASE(MODULE-FAULT), unless the record is CLEARING, and the origin record of a LOCAL
call that finds no other path avoids its own number and seeks again, or begins a fresh search after an answer. -/
def Obligations.ModulesArePowerCycled : Prop :=
  ∀ (t d : Time) (m : Mod) (s : State), s.inReset = false →
    let switched : Module :=
      { s.mod m with
        power := false, inFlight := none, pendingOrder := none, poweringDeadline := none, rescanDue := none,
        progressDeadline := none, table := [], selected := none, timeouts := 0,
        powerCycles := (s.mod m).powerCycles + 1, callInProgress := false,
        state := if (s.mod m).powerCycles + 1 < 3 then .fault else .disabled,
        powerOnTime := some (max s.now t + if (s.mod m).powerCycles + 1 < 3 then ms 1000 else ms 600000) }
    let timesOut := fun (k : OrderKind) =>
      ∃ o : OrderInFlight, (s.mod m).inFlight = some o ∧ o.kind = k ∧ o.deadline ≤ max s.now t
    let third := (s.mod m).timeouts = 2
    let cycles := fun (i : Instr) =>
      (i = .fault t m ∧ (s.mod m).power = true) ∨
        (i = .ready t m ∧ (s.mod m).power = true ∧ (s.mod m).state ≠ .powering) ∨
        (i = .poweringDeadline t m ∧ (s.mod m).state = .powering ∧ (s.mod m).poweringDeadline = some d ∧ d ≤ max s.now t) ∨
        (i = .hangupTimeout t m ∧ timesOut .hangup) ∨ (i = .scanTimeout t m ∧ timesOut .scan ∧ third) ∨
        (i = .selectTimeout t m ∧ timesOut .select ∧ third) ∨ (i = .dialTimeout t m ∧ timesOut .dial ∧ third) ∨
        (i = .abortTimeout t m ∧ timesOut .abort ∧ third)
    (∀ i, cycles i →
      ((s.mod m).link = false →
        exec i s =
          .next
            (offerSync (startEvent t s)
              { startEvent t s with
                modules := s.modules.set m switched,
                counters := { s.counters with moduleFaults := satInc s.counters.moduleFaults } })) ∧
      ∀ c, (s.mod m).link = true → s.car m = some c →
        let gone := fun (u : State) =>
          u = { startEvent t s with
                coc := u.coc, lamp := u.lamp, modules := s.modules.set m { switched with link := false },
                carriages := s.carriages.set m none, csw := u.csw, lanes := u.lanes, engines := u.engines, band := u.band,
                counters := u.counters, sched := u.sched, out := u.out } ∧
            u.counters.moduleFaults = satInc s.counters.moduleFaults ∧
            (u.engine (engineOf (.carriage m))).user = none ∧ (∀ x, (u.csw.slot x).owner ≠ some (.carriage m)) ∧
            (c.lane = none → u.lanes = s.lanes) ∧
            ∀ l, c.lane = some l → (s.lane l).occupancy = .own → (s.lane l).owner = some (.carriage m) →
              u.lanes = s.lanes.set l
                { s.lane l with
                  occupancy := .busy, owner := none, supervised := false, gapStart := (u.lane l).gapStart,
                  quietSince :=
                    if (s.lane l).carrierA = true ∨ (s.lane l).carrierB = true then none else some (max s.now t) }
        ((c.kind = .peer ∨ c.state = .clearing) → s.calm →
          ∃ u, exec i s = .next u ∧ gone u ∧ u.coc = s.coc ∧ u.lamp = s.lamp ∧
            u.band =
              if c.state = .clearing then s.band else (handOver (releaseFrame c.origin c.tag .moduleFault) s).band) ∧
        -- LOCAL, and no other path is left
        (c.kind = .loc → c.state ≠ .clearing → c.lane = none → (s.coc.state = .dialing ∨ s.coc.state = .connected) →
          s.coc.path = some { kind := .loc, station := s.own, module := some m, lane := none } → s.claims = [] →
          s.offerTable = [] → (∀ n, n ≠ m → (s.mod n).usableAsPath = false) →
          ∃ u, exec i s = .next u ∧ gone u ∧ u.band = s.band ∧ u.coc.state = .seeking ∧ u.coc.path = none ∧
            u.coc.retryTime = some (max s.now t + ms 2000) ∧ u.coc.searchDeadline.isSome = true ∧
            u.lamp.requested = .seek ∧
            (s.coc.answered = false →
              u.coc.tag = s.coc.tag ∧ u.coc.avoid = avoidWith s.coc.avoid s.own (max s.now t) ∧
                u.coc.recoveries = s.coc.recoveries) ∧
            (s.coc.answered = true →
              u.coc.tag = s.coc.tagCounter + 1 ∧ u.coc.avoid = s.coc.avoid ∧
                u.coc.recoveries = satInc s.coc.recoveries ∧
                u.coc.searchDeadline = some (max s.now t + ms 180000)))) ∧
    ((s.mod m).powerOnTime = some d → d ≤ max s.now t →
      exec (.powerOnTime t m) s =
        .next
          (offerSync (startEvent t s)
            { startEvent t s with
              modules := s.modules.set m
                { s.mod m with
                  power := true, powerOnTime := none, poweringDeadline := some (max s.now t + ms 15000),
                  poweredAt := max s.now t, state := .powering,
                  powerCycles := if (s.mod m).state = .disabled then 0 else (s.mod m).powerCycles } }))

/-- R104: the first and second timeouts: a SCAN leaves no service, a SELECT a failed selection, a DIAL is hung up, and an
ABORT leaves the module of a carriage READY. -/
def Obligations.OrderTimeoutsBelowTheThird : Prop :=
  ∀ (t : Time) (m : Mod) (o : OrderInFlight) (s : State), s.inReset = false → (s.mod m).inFlight = some o →
    o.deadline ≤ max s.now t → (s.mod m).timeouts < 2 → (s.mod m).pendingOrder = none →
    let becomes := fun (r : Module) (out : List Output) =>
      (.next (offerSync (startEvent t s) { startEvent t s with modules := s.modules.set m r, out := out }) :
        Host.Outcome State Fault Refusal)
    (o.kind = .scan →
      exec (.scanTimeout t m) s =
        becomes
          { s.mod m with
            timeouts := (s.mod m).timeouts + 1, inFlight := none, table := [], selected := none, state := .noService,
            rescanDue := some (max s.now t + ms 30000) }
          []) ∧
    (o.kind = .select → (s.mod m).link = false → (s.mod m).power = true → (s.mod m).state = .selecting →
      firstUsable (penaliseNet (s.mod m).table o.code (max s.now t + ms 60000)) = none →
      exec (.selectTimeout t m) s =
        becomes
          { s.mod m with
            timeouts := (s.mod m).timeouts + 1, inFlight := none, selected := none, state := .noService,
            table := penaliseNet (s.mod m).table o.code (max s.now t + ms 60000),
            rescanDue := some (max s.now t + ms 30000) }
          []) ∧
    (o.kind = .dial →
      exec (.dialTimeout t m) s =
        becomes
          { s.mod m with
            timeouts := (s.mod m).timeouts + 1, state := .hangingUp, progressDeadline := none, rescanDue := none,
            inFlight := some { kind := .hangup, deadline := max s.now t + ms 5000, code := 0 } }
          [.order m .hangup 0]) ∧
    (o.kind = .abort → (s.mod m).link = true →
      exec (.abortTimeout t m) s =
        becomes { s.mod m with timeouts := (s.mod m).timeouts + 1, inFlight := none, state := .ready } [])

/-! ## Lane Controller (07) -/

/-- R121, R122, R127: carrier on a lane without an owner makes it BUSY, its end on both halves starts the quiet time, 300 ms
of quiet make it FREE, and a quarantine ends in its time. -/
def Obligations.CarrierAndTimeMoveTheLane : Prop :=
  ∀ (t : Time) (l : Lane) (s : State), s.inReset = false → (s.lane l).occupancy ≠ .own → (s.lane l).owner = none →
    (∀ e, (s.engine e).lane ≠ some l) →
    let becomes := fun (x : LaneEntry) =>
      (.next { startEvent t s with lanes := s.lanes.set l x } : Host.Outcome State Fault Refusal)
    (∀ h, (s.lane l).heard h = false →
      exec (.carrierHeard t l h) s =
        becomes { (s.lane l).setHeard h true with occupancy := .busy, quietSince := none }) ∧
    (∀ h, (s.lane l).heard h = true →
      exec (.carrierNotHeard t l h) s =
        becomes
          { (s.lane l).setHeard h false with
            quietSince := if (s.lane l).heard (otherHalf h) then (s.lane l).quietSince else some (max s.now t) }) ∧
    (∀ q, (s.lane l).occupancy = .busy → (s.lane l).quietSince = some q → q + ms 300 ≤ max s.now t → s.calm →
      exec (.laneFree t l) s = becomes { s.lane l with occupancy := .free }) ∧
    ∀ q, (s.lane l).quarantineUntil = some q → q ≤ max s.now t → s.calm →
      exec (.quarantineEnd t l) s = becomes { s.lane l with quarantineUntil := none }

/-- R49, R92, R93, R97, R138, R139, R145: on a supervised lane, of the origin record (half B) or of a carriage (half A), a gap in
carrier is marked and silenced; its end is a dropout; at 400 ms it is a lane loss: an answered call of the origin record goes to
RECOVERING and claims its carriage again, and a carriage gives the lane up and waits for its origin with HOLD-LINE. -/
def Obligations.GapsOfASupervisedLane : Prop :=
  (∀ (t g : Time) (l : Lane) (s : State), s.inReset = false → (s.lane l).occupancy = .own →
    (s.lane l).owner = some .origin → (s.lane l).supervised = true → s.svc.test = none →
    ((s.lane l).carrierB = true →
      ∃ u, exec (.carrierNotHeard t l .b) s = .next u ∧
        u = { startEvent t s with
              lanes := s.lanes.set l { s.lane l with carrierB := false, gapStart := some (max s.now t) },
              csw := { s.csw with gapB := s.csw.gapB.set l true }, engines := u.engines }) ∧
    ((s.lane l).carrierB = false → (s.lane l).gapStart = some g →
      ∃ u, exec (.carrierHeard t l .b) s = .next u ∧
        u = { startEvent t s with
              lanes := s.lanes.set l { s.lane l with carrierB := true, gapStart := none, quietSince := none },
              csw := { s.csw with gapB := s.csw.gapB.set l false }, engines := u.engines,
              coc := { s.coc with dropouts := satInc s.coc.dropouts } }) ∧
    ∀ st, (s.lane l).gapStart = some g → g + ms 400 ≤ max s.now t → s.coc.state = .connected → s.coc.onLane st l →
      ∃ u, exec (.laneLoss t l) s = .next u ∧
        u = { startEvent t s with
              coc := u.coc, lamp := u.lamp, csw := u.csw, lanes := s.lanes.set l (u.lane l), engines := u.engines,
              band := u.band, counters := u.counters, out := u.out } ∧
        u.counters.laneLosses = satInc s.counters.laneLosses ∧ u.coc.state = .recovering ∧ u.coc.onPeer st ∧
        u.coc.claimKind = .rejoin ∧ u.coc.attempts = 1 ∧ u.coc.tag = s.coc.tag ∧ u.coc.answered = s.coc.answered ∧
        u.coc.recoveries = satInc s.coc.recoveries ∧ u.coc.searchDeadline = some (max s.now t + ms 180000) ∧
        u.coc.answerDeadline = some (max s.now t + ms 1500) ∧ (u.lane l).occupancy = .busy ∧ (u.lane l).owner = none ∧
        u.lamp.requested = .seek ∧ u.band = (handOver (claimFrame st s.coc.tag .rejoin s.laneMask) s).band) ∧
  (∀ (t g : Time) (l : Lane) (m : Mod) (c : Carriage) (s : State), s.inReset = false → (s.lane l).occupancy = .own →
    (s.lane l).owner = some (.carriage m) → (s.lane l).supervised = true → s.car m = some c →
    ((s.lane l).carrierA = true →
      ∃ u, exec (.carrierNotHeard t l .a) s = .next u ∧
        u = { startEvent t s with
              lanes := s.lanes.set l { s.lane l with carrierA := false, gapStart := some (max s.now t) },
              csw := { s.csw with gapA := s.csw.gapA.set l true }, engines := u.engines }) ∧
    ((s.lane l).carrierA = false → (s.lane l).gapStart = some g → s.svc.test = none →
      ∃ u, exec (.carrierHeard t l .a) s = .next u ∧
        u = { startEvent t s with
              lanes := s.lanes.set l { s.lane l with carrierA := true, gapStart := none, quietSince := none },
              csw := { s.csw with gapA := s.csw.gapA.set l false }, engines := u.engines,
              carriages := s.carriages.set m (some { c with dropouts := satInc c.dropouts }) }) ∧
    ∀ p : ResumeState, (s.lane l).gapStart = some g → g + ms 400 ≤ max s.now t → c.lane = some l → c.state = p.state →
      ∃ u, exec (.laneLoss t l) s = .next u ∧
        u = { startEvent t s with
              carriages := s.carriages.set m
                (some { c with state := .awaitRejoin, resume := some p, lane := none,
                               rejoinDeadline := some (max s.now t + ms 20000) }),
              lanes := s.lanes.set l (u.lane l), engines := u.engines, csw := u.csw, out := u.out,
              counters := { s.counters with laneLosses := satInc s.counters.laneLosses } } ∧
        (u.lane l).occupancy = .busy ∧ (u.lane l).owner = none ∧ (u.lane l).supervised = false ∧
        (u.lane l).quarantineUntil = (s.lane l).quarantineUntil ∧
        (u.csw.modTx.get m).owner ≠ some (.carriage m) ∧ (u.csw.laneTx.get l).owner ≠ some (.carriage m) ∧
        ((s.csw.modTx.get m).overlay ≠ some .ident →
          (u.csw.players.get (modPlayer m)).prompt = some .holdLine ∧
            (u.csw.players.get (modPlayer m)).state = .playing ∧ (u.csw.players.get (modPlayer m)).repeats = 0 ∧
            (u.csw.players.get (modPlayer m)).gap = ms 3000 ∧ (u.csw.modTx.get m).overlay = some .player))

/-- R130 to R136: what the times of an engine and the words of a call probe (log 8) make of it. The word that SEEK loads is the
first that began at the end of SETTLE or later, a word time before its own end; one that was partly on the line then is passed
over (the model's reading of the next whole word: log 52). Bit clocks that come before their word is whole (log 8) move the compare
in CHECK while carrier is heard on the receive half, and nothing else. A gap goes on where a wrong word
framed in it brings the checker from STEADY to SEEK, and its 40 ms return the checker to SETTLE (log 46). -/
def Obligations.EnginesFollowTimesAndWords : Prop :=
  ∀ (t : Time) (e : EngineId) (s : State), s.inReset = false → (s.engine e).user ≠ some .laneTest →
    let x := s.engine e
    let becomes := fun (y : Engine) =>
      (.next { startEvent t s with engines := s.engines.set e y } : Host.Outcome State Fault Refusal)
    (x.generator = .running → x.genStart + ms 600 ≤ max s.now t → x.checker ≠ .ended →
      exec (.generatorDone t e) s = becomes { x with generator := .done }) ∧
    (∀ c, x.checker = .settle → x.settleFrom = some c → c + ms 40 ≤ max s.now t →
      exec (.settleEnd t e) s = 
        becomes
          { x with checker := .seek, seekLoaded := false, seekFrom := some (max s.now t), run := 0, lastWord := none }) ∧
    (∀ c, (x.checker = .steady ∨ x.checker = .check ∨ x.checker = .seek) → x.gapFrom = some c → c + ms 40 ≤ max s.now t →
      exec (.checkerGapReset t e) s =
        becomes
          { x with
            checker := .settle, seekLoaded := false, seekFrom := none, settleFrom := none, gapFrom := none, steady := 0,
            compared := 0, errors := 0, compare := 0, run := 0, lastWord := none }) ∧
    (∀ (l : Lane) (h : Half) (es : List ClockEdge), x.lane = some l → x.receiveHalf = some h →
      (x.checker = .check → (s.lane l).heard h = true →
        exec (.probeWordReceived t (.clocks e es)) s = becomes { x with compare := clockCompare x.compare es }) ∧
      ((x.checker ≠ .check ∨ (s.lane l).heard h = false) →
        exec (.probeWordReceived t (.clocks e es)) s = .next (startEvent t s))) ∧
    ∀ i : WordIn, i.engine = e →
      (x.checker = .seek → x.seekLoaded = false →
        ((∀ c, x.seekFrom = some c → c + wordTime ≤ max s.now t) →
          exec (.probeWordReceived t (.word i)) s =
            becomes
              { x with
                predictor := freeRun 17 (loadBits 15 0 i.word x.predictor), seekLoaded := true, seekFrom := none }) ∧
        (∀ c, x.seekFrom = some c → max s.now t < c + wordTime →
          exec (.probeWordReceived t (.word i)) s = .next (startEvent t s))) ∧
      let next := (nextWord (freeRun i.gapBits x.predictor)).2
      let run := if x.lastWord = some i.word then x.run + 1 else 1
      (x.checker = .steady → run < 7 → x.wordErrors i = 0 → x.steady < 15 →
        exec (.probeWordReceived t (.word i)) s =
          becomes { x with predictor := next, run := run, lastWord := some i.word, steady := x.steady + 1 }) ∧
      (x.checker = .steady → run < 7 → x.wordErrors i = 0 → x.steady = 15 →
        exec (.steadyReached t i) s =
          becomes
            { x with
              predictor := next, run := run, lastWord := some i.word, checker := .check, steady := 16, compared := 0,
              errors := 0, compare := 0 }) ∧
      (x.checker = .steady → run < 7 → x.wordErrors i ≠ 0 → x.restarts < 7 →
        exec (.probeWordReceived t (.word i)) s =
          becomes
            { x with
              predictor := next, run := 0, lastWord := none, checker := .seek, seekLoaded := false, seekFrom := none,
              steady := 0, restarts := x.restarts + 1 }) ∧
      (x.checker = .check → run < 7 → x.compared < 1023 →
        exec (.probeWordReceived t (.word i)) s =
          becomes
            { x with
              predictor := next, run := run, lastWord := some i.word, errors := satAdd x.errors (x.wordErrors i),
              compared := x.compared + 1,
              compare := clockCompare x.compare i.edges })

/-- R43, R133, R134, R135, R137: a probe of the origin record that ends with STUCK, NOSYNC, ERRORS, DRIFT or TIMEOUT is
counted, told to the uplink by CONNECT, its lane quarantined and given up, and the record waits 2,000 ms for a regrant. -/
def Obligations.FailedProbeIsReported : Prop :=
  ∀ (t : Time) (st : Station) (l : Lane) (s : State), s.inReset = false → s.coc.state = .probing →
    s.coc.onLane st l → (s.lane l).occupancy = .own → (s.lane l).owner = some .origin →
    (s.engine .e0).user = some .origin → (s.engine .e0).lane = some l →
    let x := s.engine .e0
    let told := fun (o : ProbeOutcome) (u : State) =>
      u = { startEvent t s with
            coc := u.coc, csw := u.csw, lanes := s.lanes.set l (u.lane l),
            engines := s.engines.set .e0 (u.engine .e0), band := u.band, counters := u.counters } ∧
        u.coc.state = .probing ∧ u.coc.onPeer st ∧ u.coc.regrantWait = some (max s.now t + ms 2000) ∧
        (u.lane l).occupancy = .busy ∧ (u.lane l).owner = none ∧
        (∃ q, (u.lane l).quarantineUntil = some q ∧ max s.now t + ms 10000 ≤ q) ∧ (u.engine .e0).user = none ∧
        u.counters.probeFailures = satInc s.counters.probeFailures ∧
        u.band = (handOver (connectFrame st s.coc.tag l o) s).band
    (∀ i : WordIn, i.engine = .e0 →
      ((x.checker = .steady ∨ x.checker = .check) → x.lastWord = some i.word → x.run = 6 →
        ∃ u, exec (.stuck t i) s = .next u ∧ told .stuck u) ∧
      (x.checker = .steady → (x.lastWord ≠ some i.word ∨ x.run < 6) → x.wordErrors i ≠ 0 → x.restarts = 7 →
        ∃ u, exec (.nosync t i) s = .next u ∧ told .nosync u) ∧
      (x.checker = .check → x.compared = 1023 → (x.lastWord ≠ some i.word ∨ x.run < 6) →
        let errors := (satAdd x.errors (x.wordErrors i)).toNat
        let slip := (clockCompare x.compare i.edges).natAbs
        (8 < errors → ∃ u, exec (.checkComplete t i) s = .next u ∧ told .errors u) ∧
        (errors ≤ 8 → 16 < slip → ∃ u, exec (.checkComplete t i) s = .next u ∧ told .drift u))) ∧
    (x.checking = true → x.checkStart + ms 600 ≤ max s.now t →
      ∃ u, exec (.probeTimeout t .e0) s = .next u ∧ told .timeout u)

/-- R42, R80, R85, R90, R134, R137: after 1,024 words with at most 8 bit errors and at most 16 clocks of slip the probe has passed:
the origin record tells the uplink and is DIALING with its routes set; a carriage notes it, and joins when the origin's check
has passed before: its lane is supervised, its routes are set, and it makes its first dial attempt. -/
def Obligations.PassedProbeIsReported : Prop :=
  ∀ (t : Time) (i : WordIn) (s : State), s.inReset = false →
    let x := s.engine i.engine
    x.checker = .check → x.compared = 1023 → (x.lastWord ≠ some i.word ∨ x.run < 6) →
    (satAdd x.errors (x.wordErrors i)).toNat ≤ 8 →
    (clockCompare x.compare i.edges).natAbs ≤ 16 →
    (∀ st l, i.engine = .e0 → x.user = some .origin → s.coc.state = .probing → s.coc.onLane st l →
      (s.lane l).owner = some .origin →
      ∃ u, exec (.checkComplete t i) s = .next u ∧
        u = { startEvent t s with
              coc := u.coc, lamp := u.lamp, csw := u.csw, lanes := s.lanes.set l (u.lane l),
              engines := s.engines.set .e0 (u.engine .e0), band := u.band, counters := u.counters } ∧
        u.coc.state = .dialing ∧ u.coc.onLane st l ∧ u.coc.searchDeadline = none ∧
        (s.coc.claimKind = .new → u.coc.stage = none) ∧ (s.coc.claimKind = .rejoin → u.coc.stage = s.coc.stage) ∧
        u.lamp.requested = .seek ∧ (u.lane l).supervised = true ∧ (u.lane l).owner = some .origin ∧
        u.csw.speaker.base = some (.laneRx l .b) ∧ (u.csw.laneTx.get l).base = some .mic ∧
        u.counters.probeFailures = s.counters.probeFailures ∧
        u.band = (handOver (connectFrame st s.coc.tag l .pass) s).band) ∧
    ∀ m c, i.engine = engineOf (.carriage m) → x.user = some (.carriage m) → s.car m = some c → c.state = .granted →
      (c.originPassed = false →
        ∃ u, exec (.checkComplete t i) s = .next u ∧
          u = { startEvent t s with
                carriages := s.carriages.set m (some { c with ownPassed := true }),
                engines := s.engines.set i.engine (u.engine i.engine) }) ∧
      ∀ l code, c.originPassed = true → c.kind = .peer → c.rejoinGrant = false → c.tried = [] → c.lane = some l →
        (s.lane l).owner = some (.carriage m) → (s.lane l).carrierA = true → (s.mod m).inFlight = none →
        dialChoice (s.mod m).table (s.mod m).selected [] = .dial code →
        ∃ u, exec (.checkComplete t i) s = .next u ∧
          u = { startEvent t s with
                carriages := s.carriages.set m (u.car m), modules := s.modules.set m (u.mod m),
                lanes := s.lanes.set l { s.lane l with supervised := true, gapStart := none }, csw := u.csw,
                engines := s.engines.set i.engine (u.engine i.engine), band := u.band, counters := u.counters,
                sched := u.sched, out := [.order m .dial 0] } ∧
          u.car m = some
            { c with ownPassed := true, connectDeadline := none, state := .dialing, tried := [code],
                     network := some code, lastStage := some .dialing } ∧
          u.mod m =
            { s.mod m with
              state := .dialing, callInProgress := true, rescanDue := none,
              inFlight := some { kind := .dial, deadline := max s.now t + ms 10000, code := 0 } } ∧
          (u.csw.modTx.get m).base = some (.laneRx l .a) ∧ (u.csw.laneTx.get l).base = some (.modRx m) ∧
          u.counters.probeFailures = s.counters.probeFailures ∧
          u.band = (handOver (progressFrame c.origin c.tag (oct 0) code) s).band

/-! ## Service Responder (12) -/

/-- R180 to R182: an order in range, at a station with no active record, for a lane free for choosing, starts its test: a
GENERATE takes the lane and sends the pattern of the own number and tag 0, a CHECK holds the lane and listens. Any other such
order, and one whose role is above 2, is refused with a TEST-REPORT that names its lane, and the result record is kept; a STOP
without a test is answered with the record. -/
def Obligations.TestOrderStartsTheTest : Prop :=
  (∀ (t : Time) (f : Rx) (l : Lane) (s : State), s.inReset = false → s.hears f → f.payload.length = 7 →
    s.recordActive = false → testFieldsOk f.payload = true → octAt f.payload 1 = laneNumber l →
    (s.lane l).freeForChoosing = true →
    let started := fun (role : TestRole) (u : State) =>
      u = { hunt (startEvent t s) with
            svc := { s.svc with
              test := some
                { role := role, lane := l, orderer := f.sender, lengthExp := octAt f.payload 2,
                  intervalExp := octAt f.payload 3, startBit := octAt f.payload 4, walk := octAt f.payload 5,
                  burstExp := octAt f.payload 6, start := max s.now t, dropouts := 0, largest := 0 } },
            lanes := s.lanes.set l (u.lane l), engines := s.engines.set .e0 (u.engine .e0) } ∧
        (u.lane l).owner = some .laneTest ∧ (u.engine .e0).user = some .laneTest ∧ (u.engine .e0).lane = some l
    (octAt f.payload 0 = 0 →
      ∃ u, exec (.testOrderGenerate t f) s = .next u ∧ started .generate u ∧ (u.lane l).occupancy = .own ∧
        (u.engine .e0).generator = .running ∧ (u.engine .e0).checker = .idle ∧
        (u.engine .e0).genSeed = seedOf s.own 0 ∧ (u.engine .e0).transmitHalf = some .a) ∧
    (octAt f.payload 0 = 1 →
      ∃ u, exec (.testOrderCheck t f) s = .next u ∧ started .check u ∧ (u.lane l).occupancy = .free ∧
        (u.engine .e0).generator = .idle ∧ (u.engine .e0).checker = .settle ∧
        (u.engine .e0).receiveHalf = some .a)) ∧
  ∀ (t : Time) (f : Rx) (s : State), s.inReset = false → s.hears f → f.payload.length = 7 →
    let refused : Host.Outcome State Fault Refusal := .next
      (handOver
        { kind := .testReport, target := f.sender, payload := [9, octetAt f.payload 1, 0, 0, 0, 0, 0, 0, 0, 0, 0, 0, 0] }
        (hunt (startEvent t s)))
    ((s.recordActive = true ∨ testFieldsOk f.payload = false ∨ laneOfNumber (octAt f.payload 1) = none ∨
        (∀ l, laneOfNumber (octAt f.payload 1) = some l → (s.lane l).freeForChoosing = false)) →
      (octAt f.payload 0 = 0 → exec (.testOrderGenerate t f) s = refused) ∧
        (octAt f.payload 0 = 1 → exec (.testOrderCheck t f) s = refused)) ∧
    (2 < octAt f.payload 0 → exec (.testOrderGenerate t f) s = refused) ∧
    (octAt f.payload 0 = 2 → s.svc.test = none →
      exec (.testOrderStop t f) s =
        .next
          (handOver { kind := .testReport, target := f.sender, payload := recordOctets s.svc.record }
            (hunt (startEvent t s))))

/-- R136, R154, R181 to R183: a lane test ends at its last word, at a stuck line, at its limit, by STOP, by a press, which the origin
record takes besides, or by a CLAIM for the station, which is taken after it: its record is written, its lane given up, its
engine stopped, and TEST-REPORT goes to its orderer. Before that, every bit clock in CHECK, whether it comes with a word or
before its word is whole (log 8), moves the compare and the largest magnitude, and the compare returns to 0 after every 1,024
compared words. The words of an aborted generator are the whole words sent (log 47). -/
def Obligations.LaneTestEndsWithItsReport : Prop :=
  ∀ (t : Time) (x : LaneTest) (s : State), s.inReset = false → s.calm → s.svc.test = some x →
    (s.lane x.lane).owner = some .laneTest → (s.engine .e0).user = some .laneTest → (s.engine .e0).lane = some x.lane →
    let ended := fun (b : State) (r : ResultRecord) (u : State) =>
      u = { startEvent t s with
            svc := { s.svc with record := r, test := none }, lanes := s.lanes.set x.lane (u.lane x.lane),
            engines := s.engines.set .e0 (u.engine .e0), csw := u.csw, band := u.band, counters := u.counters } ∧
        (u.lane x.lane).owner = none ∧ (u.lane x.lane).occupancy ≠ .own ∧ (u.engine .e0).user = none ∧
        u.band = (handOver (testReportFrame x.orderer r) b).band
    (x.role = .generate → x.start + ms (256 * 2 ^ x.lengthExp) ≤ max s.now t →
      ∃ u, exec (.testGenerationEnd t) s = .next u ∧
        ended s (testRecord x .generated (s.engine .e0) (max s.now t)) u) ∧
    (x.role = .check → x.start + ms (256 * 2 ^ x.lengthExp + 2000) ≤ max s.now t →
      ∃ u, exec (.testTimeout t) s = .next u ∧ ended s (testRecord x .timeout (s.engine .e0) (max s.now t)) u) ∧
    (∀ f : Rx, s.hears f → f.payload.length = 7 → octAt f.payload 0 = 2 →
      ∃ u, exec (.testOrderStop t f) s = .next u ∧ ended (hunt s) (testRecord x .aborted (s.engine .e0) (max s.now t)) u) ∧
    -- bit clocks and words in CHECK
    (∀ (h : Half) (es : List ClockEdge), x.role = .check → (s.engine .e0).checker = .check →
      (s.engine .e0).receiveHalf = some h → (s.lane x.lane).heard h = true →
      exec (.probeWordReceived t (.clocks .e0 es)) s =
        .next
          { startEvent t s with
            engines := s.engines.set .e0 { s.engine .e0 with compare := clockCompare (s.engine .e0).compare es },
            svc := { s.svc with
              test := some { x with largest := max x.largest (comparePeak (s.engine .e0).compare es) } } }) ∧
    (∀ i : WordIn, i.engine = .e0 → x.role = .check → (s.engine .e0).checker = .check →
      (s.engine .e0).compared + 1 < testGoal x.lengthExp →
      let y := s.engine .e0
      let run := if y.lastWord = some i.word then y.run + 1 else 1
      run < 7 →
      exec (.probeWordReceived t (.word i)) s =
        .next
          { startEvent t s with
            engines := s.engines.set .e0
              { y with
                predictor := (nextWord (freeRun i.gapBits y.predictor)).2, run := run, lastWord := some i.word,
                errors := satAdd y.errors (y.wordErrors i), compared := y.compared + 1,
                compare := if (y.compared + 1) % 1024 = 0 then 0 else clockCompare y.compare i.edges },
            svc := { s.svc with
              test := some { x with largest := max x.largest (comparePeak y.compare i.edges) } } }) ∧
    (∀ i : WordIn, i.engine = .e0 → x.role = .check → (s.engine .e0).checker = .check →
      (s.engine .e0).lastWord = some i.word → (s.engine .e0).run = 6 →
      ∃ u, exec (.stuck t i) s = .next u ∧
        ended s
          (testRecord { x with largest := max x.largest (comparePeak (s.engine .e0).compare i.edges) } .stuck
            { s.engine .e0 with compare := clockCompare (s.engine .e0).compare i.edges } (max s.now t)) u) ∧
    (∀ i : WordIn, i.engine = .e0 → x.role = .check → (s.engine .e0).checker = .check →
      (s.engine .e0).compared + 1 = testGoal x.lengthExp →
      ((s.engine .e0).lastWord ≠ some i.word ∨ (s.engine .e0).run < 6) →
      ∃ u r, exec (.testCheckComplete t i) s = .next u ∧ ended s r u ∧ r.words = testGoal x.lengthExp ∧
        r.errorsCounted = (satAdd (s.engine .e0).errors ((s.engine .e0).wordErrors i)).toNat ∧
        r.errorsExpected = x.expected ∧
        r.lastCompare = clockCompare (s.engine .e0).compare i.edges ∧
        r.largestCompare = max x.largest (comparePeak (s.engine .e0).compare i.edges) ∧
        r.result =
          if r.errorsCounted + 8 < x.expected ∨ x.expected + 8 < r.errorsCounted then .errors
          else if 16 < r.largestCompare then .drift else .pass) ∧
    -- a press
    (s.button.sampledAt + ms 10 ≤ max s.now t → s.button.pressed = false → s.button.disagree = 2 →
      let pressed := fun (u : State) =>
        u = { startEvent t s with
              button := { pressed := true, disagree := 0, sampledAt := max s.now t },
              svc := { s.svc with record := testRecord x .aborted (s.engine .e0) (max s.now t), test := none },
              coc := u.coc, lamp := u.lamp, lanes := s.lanes.set x.lane (u.lane x.lane),
              engines := s.engines.set .e0 (u.engine .e0), csw := u.csw, band := u.band, counters := u.counters,
              out := u.out } ∧
          (u.lane x.lane).owner = none ∧ (u.lane x.lane).occupancy ≠ .own ∧ (u.engine .e0).user = none ∧
          u.band = (handOver (testReportFrame x.orderer u.svc.record) s).band
      ((s.coc.state = .idle ∨ s.coc.state = .failed) → s.noCandidate →
        ∃ u, exec (.buttonPress t) s = .next u ∧ pressed u ∧ u.coc.state = .seeking ∧ u.coc.tag = s.coc.tagCounter + 1 ∧
          u.counters.callsOriginated = satInc s.counters.callsOriginated) ∧
      (s.coc.state ≠ .idle → s.coc.state ≠ .failed →
        ∃ u, exec (.buttonPress t) s = .next u ∧ pressed u ∧
          u.coc = { s.coc with pressesIgnored := satInc s.coc.pressesIgnored })) ∧
    -- a CLAIM
    ∀ f : Rx, s.hears f → f.payload.length = 3 →
      let aborted := fun (u : State) =>
        u.svc = { s.svc with record := testRecord x .aborted (s.engine .e0) (max s.now t), test := none } ∧
          (∀ l, (u.lane l).owner = some .laneTest → (s.lane l).owner = some .laneTest ∧ l ≠ x.lane) ∧
          (u.engine .e0).user ≠ some .laneTest
      let reported := handOver (testReportFrame x.orderer (testRecord x .aborted (s.engine .e0) (max s.now t))) (hunt s)
      (octAt f.payload 1 = 0 →
        ∃ u, exec (.claimNew t f) s = .next u ∧ aborted u ∧
          (s.band.dupFault = false → s.straps.offer = false →
            (∀ n k, s.car n = some k → k.origin ≠ f.sender.toNat) →
            u.band = (handOver (refuseFrame f.sender.toNat (octetAt f.payload 0) .noChannel) reported).band)) ∧
      (octAt f.payload 1 = 1 →
        ∃ u, exec (.claimRejoin t f) s = .next u ∧ aborted u ∧
          (s.band.dupFault = false → (∀ n k, s.car n = some k → k.origin ≠ f.sender.toNat) →
            u.band = (handOver (refuseFrame f.sender.toNat (octetAt f.payload 0) .noRejoin) reported).band))

/-- R178, R179: a STATUS-QUERY is answered with STATUS-REPORT of its part; a COUNTERS query with clear flag 1 sets the
counters to 0 after the hand-over. The numbers of the supply and the bits without a name in `generalOctets` and `moduleOctets`, and
their octets for what is absent, are in part the model's choice (log 36, 53). -/
def Obligations.StatusQueriesAreAnswered : Prop :=
  ∀ (t : Time) (f : Rx) (s : State), s.inReset = false → s.hears f → f.payload.length = 2 →
    let answered := fun (octets : List Octet) =>
      handOver { kind := .statusReport, target := f.sender, payload := octets } (hunt (startEvent t s))
    (octAt f.payload 0 = 0 ∨ 3 < octAt f.payload 0 →
      exec (.statusQueryGeneral t f) s = .next (answered (generalOctets s))) ∧
    (octAt f.payload 0 = 1 → octAt f.payload 1 ≠ 1 →
      exec (.statusQueryCounters t f) s = .next (answered (counterOctets s.counters))) ∧
    (octAt f.payload 0 = 1 → octAt f.payload 1 = 1 →
      exec (.statusQueryCounters t f) s =
        .next { answered (counterOctets s.counters) with counters := Counters.zero }) ∧
    (octAt f.payload 0 = 2 →
      exec (.statusQueryModules t f) s =
        .next (answered (moduleOctets s.modules.a ++ moduleOctets s.modules.b))) ∧
    (octAt f.payload 0 = 3 → exec (.statusQueryLastTest t f) s = .next (answered (recordOctets s.svc.record)))

/-- R57, R78, R98, R140, R152, R158, R168, R179, R183, R184: a RESTART is refused while a record is active and the force octet
is not 1; else it clears calls, claims, routes, tests and the Offer Table, and keeps straps, supply, button, tag counter, counters,
the modules' service and the duplicate fault. RELEASE(RESTART) goes to the origin record's uplink and to the origins of the
PEER carriages in A and in B that are not CLEARING, then STATUS-REPORT GENERAL to the sender, then TEST-REPORT to the orderer of
an aborted test. The values an idle player and the burst keep inside the switch are the model's (log 19), and so are the stage and
the network cleared with the path (log 12), the queue position cleared with the deadlines (log 50), the moment of the last wake
forgotten (log 38) and the quiet of a lane held for a CHECK counted from the RESTART (log 23). -/
def Obligations.RestartClearsOrIsRefused : Prop :=
  ∀ (t : Time) (f : Rx) (s : State), s.inReset = false → s.hears f → f.payload.length = 1 →
    (octAt f.payload 0 ≠ 1 → s.recordActive = true →
      let refused := { hunt (startEvent t s) with svc := { s.svc with lastRestart := .refused } }
      exec (.restart t f) s =
        .next (handOver { kind := .statusReport, target := f.sender, payload := generalOctets refused } refused)) ∧
    (octAt f.payload 0 = 1 ∨ s.recordActive = false →
      let own := match s.coc.path with
        | some p =>
          if p.kind = .peer ∧ s.coc.state ≠ .idle ∧ s.coc.state ≠ .failed then
            [releaseFrame p.station s.coc.tag .restart]
          else []
        | none => []
      let carried := fun (m : Mod) => match s.car m with
        | some c => if c.kind = .peer ∧ c.state ≠ .clearing then [releaseFrame c.origin c.tag .restart] else []
        | none => []
      let calls := own ++ carried .a ++ carried .b
      ∃ u, exec (.restart t f) s = .next u ∧
        u = { startEvent t s with
              coc := u.coc, lamp := u.lamp, csw := Switch.reset, sched := u.sched, offerTable := [], claims := [],
              carriages := { a := none, b := none }, modules := u.modules, lanes := u.lanes, engines := u.engines,
              band := u.band, svc := u.svc, out := u.out } ∧
        u.band =
          { s.band with
            receiving := false, calls := calls, offer := none,
            services :=
              { kind := .statusReport, target := f.sender, payload := generalOctets u } ::
                (match s.svc.test with
                  | some x => [testReportFrame x.orderer u.svc.record]
                  | none => []),
            hand := some
              { cls := if calls = [] then .service else .call, line := none, collisions := 0, replaced := false } } ∧
        u.coc =
          { s.coc with
            state := .idle, path := none, claimKind := .new, answerDeadline := none, queuePos := none,
            silenceDeadline := none, regrantWait := none, stage := none, network := none, searchDeadline := none,
            retryTime := none, wokenAt := none, failedUntil := none, avoid := [],
            endReason := if s.coc.state = .idle then s.coc.endReason else .restart } ∧
        (∀ l, (u.lane l).owner = none ∧ (u.lane l).occupancy ≠ .own ∧ (u.lane l).supervised = false ∧
          (u.lane l).quarantineUntil = (s.lane l).quarantineUntil ∧
          ((s.lane l).owner = none → (s.lane l).occupancy ≠ .own →
            (u.lane l).occupancy = (s.lane l).occupancy ∧ (u.lane l).quietSince = (s.lane l).quietSince) ∧
          ((s.lane l).owner ≠ none →
            (u.lane l).occupancy = .busy ∧
              (u.lane l).quietSince =
                if (s.lane l).carrierA = true ∨ (s.lane l).carrierB = true then none else some (max s.now t))) ∧
        (∀ e, (u.engine e).user = none ∧ (u.engine e).generator = .idle ∧ (u.engine e).checker = .idle) ∧
        u.svc =
          { record := match s.svc.test with
              | some x => testRecord x .aborted (s.engine .e0) (max s.now t)
              | none => s.svc.record
            test := none, lastRestart := .done } ∧
        (∀ m, (u.mod m).power = (s.mod m).power ∧ (u.mod m).table = (s.mod m).table ∧
          (u.mod m).powerCycles = (s.mod m).powerCycles ∧ (s.car m = none → u.mod m = s.mod m)) ∧
        u.lamp.requested = .dark ∧ u.lamp.running = (if s.own = 0 ∨ s.band.dupFault = true then .fault else .dark) ∧
        (u.sched.phase =
          if s.straps.offer = false ∨ (s.straps.modA = false ∧ s.straps.modB = false) then .silent else .starting) ∧
        (u.sched.phase = .starting → u.sched.firstDue = some (max s.now t + ms (500 + 20 * s.own))))
end

