-- ==== Sys2Proof/Laws/State.lean ====
section
/-! SUPPORT. What each named update of the state does to each field, and the reads and writes of the families. -/

namespace Sys2Proof.Machine

@[simp] theorem PerMod.get_set_self {α : Type} (p : PerMod α) (i : Mod) (x : α) : (p.set i x).get i = x := by cases i <;> rfl
theorem PerMod.get_set_ne {α : Type} (p : PerMod α) (i j : Mod) (x : α) (h : j ≠ i) : (p.set i x).get j = p.get j := by
  cases i <;> cases j <;> first | rfl | exact absurd rfl h
@[simp] theorem PerMod.set_get_self {α : Type} (p : PerMod α) (i : Mod) : p.set i (p.get i) = p := by cases i <;> rfl
@[simp] theorem PerMod.set_set {α : Type} (p : PerMod α) (i : Mod) (x y : α) : (p.set i x).set i y = p.set i y := by cases i <;> rfl

@[simp] theorem PerLane.get_set_self {α : Type} (p : PerLane α) (i : Lane) (x : α) : (p.set i x).get i = x := by cases i <;> rfl
theorem PerLane.get_set_ne {α : Type} (p : PerLane α) (i j : Lane) (x : α) (h : j ≠ i) : (p.set i x).get j = p.get j := by
  cases i <;> cases j <;> first | rfl | exact absurd rfl h
@[simp] theorem PerLane.set_get_self {α : Type} (p : PerLane α) (i : Lane) : p.set i (p.get i) = p := by cases i <;> rfl
@[simp] theorem PerLane.set_set {α : Type} (p : PerLane α) (i : Lane) (x y : α) : (p.set i x).set i y = p.set i y := by cases i <;> rfl

@[simp] theorem PerEngine.get_set_self {α : Type} (p : PerEngine α) (i : EngineId) (x : α) : (p.set i x).get i = x := by cases i <;> rfl
theorem PerEngine.get_set_ne {α : Type} (p : PerEngine α) (i j : EngineId) (x : α) (h : j ≠ i) : (p.set i x).get j = p.get j := by
  cases i <;> cases j <;> first | rfl | exact absurd rfl h
@[simp] theorem PerEngine.set_get_self {α : Type} (p : PerEngine α) (i : EngineId) : p.set i (p.get i) = p := by cases i <;> rfl
@[simp] theorem PerEngine.set_set {α : Type} (p : PerEngine α) (i : EngineId) (x y : α) : (p.set i x).set i y = p.set i y := by cases i <;> rfl

@[simp] theorem PerPlayer.get_set_self {α : Type} (p : PerPlayer α) (i : PlayerId) (x : α) : (p.set i x).get i = x := by cases i <;> rfl
theorem PerPlayer.get_set_ne {α : Type} (p : PerPlayer α) (i j : PlayerId) (x : α) (h : j ≠ i) : (p.set i x).get j = p.get j := by
  cases i <;> cases j <;> first | rfl | exact absurd rfl h
@[simp] theorem PerPlayer.set_get_self {α : Type} (p : PerPlayer α) (i : PlayerId) : p.set i (p.get i) = p := by cases i <;> rfl
@[simp] theorem PerPlayer.set_set {α : Type} (p : PerPlayer α) (i : PlayerId) (x y : α) : (p.set i x).set i y = p.set i y := by cases i <;> rfl

@[simp] theorem State.updMod_now (s : State) (m : Mod) (f : Module → Module) : (s.updMod m f).now = s.now := rfl
@[simp] theorem State.updMod_inReset (s : State) (m : Mod) (f : Module → Module) : (s.updMod m f).inReset = s.inReset := rfl
@[simp] theorem State.updMod_powerOnHold (s : State) (m : Mod) (f : Module → Module) : (s.updMod m f).powerOnHold = s.powerOnHold := rfl
@[simp] theorem State.updMod_straps (s : State) (m : Mod) (f : Module → Module) : (s.updMod m f).straps = s.straps := rfl
@[simp] theorem State.updMod_sched (s : State) (m : Mod) (f : Module → Module) : (s.updMod m f).sched = s.sched := rfl
@[simp] theorem State.updMod_offerTable (s : State) (m : Mod) (f : Module → Module) : (s.updMod m f).offerTable = s.offerTable := rfl
@[simp] theorem State.updMod_coc (s : State) (m : Mod) (f : Module → Module) : (s.updMod m f).coc = s.coc := rfl
@[simp] theorem State.updMod_claims (s : State) (m : Mod) (f : Module → Module) : (s.updMod m f).claims = s.claims := rfl
@[simp] theorem State.updMod_carriages (s : State) (m : Mod) (f : Module → Module) : (s.updMod m f).carriages = s.carriages := rfl
@[simp] theorem State.updMod_modules (s : State) (m : Mod) (f : Module → Module) : (s.updMod m f).modules = s.modules.set m (f (s.modules.get m)) := rfl
@[simp] theorem State.updMod_lanes (s : State) (m : Mod) (f : Module → Module) : (s.updMod m f).lanes = s.lanes := rfl
@[simp] theorem State.updMod_engines (s : State) (m : Mod) (f : Module → Module) : (s.updMod m f).engines = s.engines := rfl
@[simp] theorem State.updMod_csw (s : State) (m : Mod) (f : Module → Module) : (s.updMod m f).csw = s.csw := rfl
@[simp] theorem State.updMod_button (s : State) (m : Mod) (f : Module → Module) : (s.updMod m f).button = s.button := rfl
@[simp] theorem State.updMod_lamp (s : State) (m : Mod) (f : Module → Module) : (s.updMod m f).lamp = s.lamp := rfl
@[simp] theorem State.updMod_supply (s : State) (m : Mod) (f : Module → Module) : (s.updMod m f).supply = s.supply := rfl
@[simp] theorem State.updMod_band (s : State) (m : Mod) (f : Module → Module) : (s.updMod m f).band = s.band := rfl
@[simp] theorem State.updMod_counters (s : State) (m : Mod) (f : Module → Module) : (s.updMod m f).counters = s.counters := rfl
@[simp] theorem State.updMod_svc (s : State) (m : Mod) (f : Module → Module) : (s.updMod m f).svc = s.svc := rfl
@[simp] theorem State.updMod_notices (s : State) (m : Mod) (f : Module → Module) : (s.updMod m f).notices = s.notices := rfl
@[simp] theorem State.updMod_out (s : State) (m : Mod) (f : Module → Module) : (s.updMod m f).out = s.out := rfl
@[simp] theorem State.updMod_freeTick (s : State) (m : Mod) (f : Module → Module) : (s.updMod m f).freeTick = s.freeTick := rfl
@[simp] theorem State.updMod_pending (s : State) (m : Mod) (f : Module → Module) : (s.updMod m f).pending = s.pending := rfl

@[simp] theorem State.setCar_now (s : State) (m : Mod) (c : Option Carriage) : (s.setCar m c).now = s.now := rfl
@[simp] theorem State.setCar_inReset (s : State) (m : Mod) (c : Option Carriage) : (s.setCar m c).inReset = s.inReset := rfl
@[simp] theorem State.setCar_powerOnHold (s : State) (m : Mod) (c : Option Carriage) : (s.setCar m c).powerOnHold = s.powerOnHold := rfl
@[simp] theorem State.setCar_straps (s : State) (m : Mod) (c : Option Carriage) : (s.setCar m c).straps = s.straps := rfl
@[simp] theorem State.setCar_sched (s : State) (m : Mod) (c : Option Carriage) : (s.setCar m c).sched = s.sched := rfl
@[simp] theorem State.setCar_offerTable (s : State) (m : Mod) (c : Option Carriage) : (s.setCar m c).offerTable = s.offerTable := rfl
@[simp] theorem State.setCar_coc (s : State) (m : Mod) (c : Option Carriage) : (s.setCar m c).coc = s.coc := rfl
@[simp] theorem State.setCar_claims (s : State) (m : Mod) (c : Option Carriage) : (s.setCar m c).claims = s.claims := rfl
@[simp] theorem State.setCar_carriages (s : State) (m : Mod) (c : Option Carriage) : (s.setCar m c).carriages = s.carriages.set m c := rfl
@[simp] theorem State.setCar_modules (s : State) (m : Mod) (c : Option Carriage) : (s.setCar m c).modules = s.modules := rfl
@[simp] theorem State.setCar_lanes (s : State) (m : Mod) (c : Option Carriage) : (s.setCar m c).lanes = s.lanes := rfl
@[simp] theorem State.setCar_engines (s : State) (m : Mod) (c : Option Carriage) : (s.setCar m c).engines = s.engines := rfl
@[simp] theorem State.setCar_csw (s : State) (m : Mod) (c : Option Carriage) : (s.setCar m c).csw = s.csw := rfl
@[simp] theorem State.setCar_button (s : State) (m : Mod) (c : Option Carriage) : (s.setCar m c).button = s.button := rfl
@[simp] theorem State.setCar_lamp (s : State) (m : Mod) (c : Option Carriage) : (s.setCar m c).lamp = s.lamp := rfl
@[simp] theorem State.setCar_supply (s : State) (m : Mod) (c : Option Carriage) : (s.setCar m c).supply = s.supply := rfl
@[simp] theorem State.setCar_band (s : State) (m : Mod) (c : Option Carriage) : (s.setCar m c).band = s.band := rfl
@[simp] theorem State.setCar_counters (s : State) (m : Mod) (c : Option Carriage) : (s.setCar m c).counters = s.counters := rfl
@[simp] theorem State.setCar_svc (s : State) (m : Mod) (c : Option Carriage) : (s.setCar m c).svc = s.svc := rfl
@[simp] theorem State.setCar_notices (s : State) (m : Mod) (c : Option Carriage) : (s.setCar m c).notices = s.notices := rfl
@[simp] theorem State.setCar_out (s : State) (m : Mod) (c : Option Carriage) : (s.setCar m c).out = s.out := rfl
@[simp] theorem State.setCar_freeTick (s : State) (m : Mod) (c : Option Carriage) : (s.setCar m c).freeTick = s.freeTick := rfl
@[simp] theorem State.setCar_pending (s : State) (m : Mod) (c : Option Carriage) : (s.setCar m c).pending = s.pending := rfl

@[simp] theorem State.updCar_now (s : State) (m : Mod) (f : Carriage → Carriage) : (s.updCar m f).now = s.now := rfl
@[simp] theorem State.updCar_inReset (s : State) (m : Mod) (f : Carriage → Carriage) : (s.updCar m f).inReset = s.inReset := rfl
@[simp] theorem State.updCar_powerOnHold (s : State) (m : Mod) (f : Carriage → Carriage) : (s.updCar m f).powerOnHold = s.powerOnHold := rfl
@[simp] theorem State.updCar_straps (s : State) (m : Mod) (f : Carriage → Carriage) : (s.updCar m f).straps = s.straps := rfl
@[simp] theorem State.updCar_sched (s : State) (m : Mod) (f : Carriage → Carriage) : (s.updCar m f).sched = s.sched := rfl
@[simp] theorem State.updCar_offerTable (s : State) (m : Mod) (f : Carriage → Carriage) : (s.updCar m f).offerTable = s.offerTable := rfl
@[simp] theorem State.updCar_coc (s : State) (m : Mod) (f : Carriage → Carriage) : (s.updCar m f).coc = s.coc := rfl
@[simp] theorem State.updCar_claims (s : State) (m : Mod) (f : Carriage → Carriage) : (s.updCar m f).claims = s.claims := rfl
@[simp] theorem State.updCar_carriages (s : State) (m : Mod) (f : Carriage → Carriage) : (s.updCar m f).carriages = s.carriages.set m ((s.carriages.get m).map f) := rfl
@[simp] theorem State.updCar_modules (s : State) (m : Mod) (f : Carriage → Carriage) : (s.updCar m f).modules = s.modules := rfl
@[simp] theorem State.updCar_lanes (s : State) (m : Mod) (f : Carriage → Carriage) : (s.updCar m f).lanes = s.lanes := rfl
@[simp] theorem State.updCar_engines (s : State) (m : Mod) (f : Carriage → Carriage) : (s.updCar m f).engines = s.engines := rfl
@[simp] theorem State.updCar_csw (s : State) (m : Mod) (f : Carriage → Carriage) : (s.updCar m f).csw = s.csw := rfl
@[simp] theorem State.updCar_button (s : State) (m : Mod) (f : Carriage → Carriage) : (s.updCar m f).button = s.button := rfl
@[simp] theorem State.updCar_lamp (s : State) (m : Mod) (f : Carriage → Carriage) : (s.updCar m f).lamp = s.lamp := rfl
@[simp] theorem State.updCar_supply (s : State) (m : Mod) (f : Carriage → Carriage) : (s.updCar m f).supply = s.supply := rfl
@[simp] theorem State.updCar_band (s : State) (m : Mod) (f : Carriage → Carriage) : (s.updCar m f).band = s.band := rfl
@[simp] theorem State.updCar_counters (s : State) (m : Mod) (f : Carriage → Carriage) : (s.updCar m f).counters = s.counters := rfl
@[simp] theorem State.updCar_svc (s : State) (m : Mod) (f : Carriage → Carriage) : (s.updCar m f).svc = s.svc := rfl
@[simp] theorem State.updCar_notices (s : State) (m : Mod) (f : Carriage → Carriage) : (s.updCar m f).notices = s.notices := rfl
@[simp] theorem State.updCar_out (s : State) (m : Mod) (f : Carriage → Carriage) : (s.updCar m f).out = s.out := rfl
@[simp] theorem State.updCar_freeTick (s : State) (m : Mod) (f : Carriage → Carriage) : (s.updCar m f).freeTick = s.freeTick := rfl
@[simp] theorem State.updCar_pending (s : State) (m : Mod) (f : Carriage → Carriage) : (s.updCar m f).pending = s.pending := rfl

@[simp] theorem State.updLane_now (s : State) (l : Lane) (f : LaneEntry → LaneEntry) : (s.updLane l f).now = s.now := rfl
@[simp] theorem State.updLane_inReset (s : State) (l : Lane) (f : LaneEntry → LaneEntry) : (s.updLane l f).inReset = s.inReset := rfl
@[simp] theorem State.updLane_powerOnHold (s : State) (l : Lane) (f : LaneEntry → LaneEntry) : (s.updLane l f).powerOnHold = s.powerOnHold := rfl
@[simp] theorem State.updLane_straps (s : State) (l : Lane) (f : LaneEntry → LaneEntry) : (s.updLane l f).straps = s.straps := rfl
@[simp] theorem State.updLane_sched (s : State) (l : Lane) (f : LaneEntry → LaneEntry) : (s.updLane l f).sched = s.sched := rfl
@[simp] theorem State.updLane_offerTable (s : State) (l : Lane) (f : LaneEntry → LaneEntry) : (s.updLane l f).offerTable = s.offerTable := rfl
@[simp] theorem State.updLane_coc (s : State) (l : Lane) (f : LaneEntry → LaneEntry) : (s.updLane l f).coc = s.coc := rfl
@[simp] theorem State.updLane_claims (s : State) (l : Lane) (f : LaneEntry → LaneEntry) : (s.updLane l f).claims = s.claims := rfl
@[simp] theorem State.updLane_carriages (s : State) (l : Lane) (f : LaneEntry → LaneEntry) : (s.updLane l f).carriages = s.carriages := rfl
@[simp] theorem State.updLane_modules (s : State) (l : Lane) (f : LaneEntry → LaneEntry) : (s.updLane l f).modules = s.modules := rfl
@[simp] theorem State.updLane_lanes (s : State) (l : Lane) (f : LaneEntry → LaneEntry) : (s.updLane l f).lanes = s.lanes.set l (f (s.lanes.get l)) := rfl
@[simp] theorem State.updLane_engines (s : State) (l : Lane) (f : LaneEntry → LaneEntry) : (s.updLane l f).engines = s.engines := rfl
@[simp] theorem State.updLane_csw (s : State) (l : Lane) (f : LaneEntry → LaneEntry) : (s.updLane l f).csw = s.csw := rfl
@[simp] theorem State.updLane_button (s : State) (l : Lane) (f : LaneEntry → LaneEntry) : (s.updLane l f).button = s.button := rfl
@[simp] theorem State.updLane_lamp (s : State) (l : Lane) (f : LaneEntry → LaneEntry) : (s.updLane l f).lamp = s.lamp := rfl
@[simp] theorem State.updLane_supply (s : State) (l : Lane) (f : LaneEntry → LaneEntry) : (s.updLane l f).supply = s.supply := rfl
@[simp] theorem State.updLane_band (s : State) (l : Lane) (f : LaneEntry → LaneEntry) : (s.updLane l f).band = s.band := rfl
@[simp] theorem State.updLane_counters (s : State) (l : Lane) (f : LaneEntry → LaneEntry) : (s.updLane l f).counters = s.counters := rfl
@[simp] theorem State.updLane_svc (s : State) (l : Lane) (f : LaneEntry → LaneEntry) : (s.updLane l f).svc = s.svc := rfl
@[simp] theorem State.updLane_notices (s : State) (l : Lane) (f : LaneEntry → LaneEntry) : (s.updLane l f).notices = s.notices := rfl
@[simp] theorem State.updLane_out (s : State) (l : Lane) (f : LaneEntry → LaneEntry) : (s.updLane l f).out = s.out := rfl
@[simp] theorem State.updLane_freeTick (s : State) (l : Lane) (f : LaneEntry → LaneEntry) : (s.updLane l f).freeTick = s.freeTick := rfl
@[simp] theorem State.updLane_pending (s : State) (l : Lane) (f : LaneEntry → LaneEntry) : (s.updLane l f).pending = s.pending := rfl

@[simp] theorem State.updEngine_now (s : State) (e : EngineId) (f : Engine → Engine) : (s.updEngine e f).now = s.now := rfl
@[simp] theorem State.updEngine_inReset (s : State) (e : EngineId) (f : Engine → Engine) : (s.updEngine e f).inReset = s.inReset := rfl
@[simp] theorem State.updEngine_powerOnHold (s : State) (e : EngineId) (f : Engine → Engine) : (s.updEngine e f).powerOnHold = s.powerOnHold := rfl
@[simp] theorem State.updEngine_straps (s : State) (e : EngineId) (f : Engine → Engine) : (s.updEngine e f).straps = s.straps := rfl
@[simp] theorem State.updEngine_sched (s : State) (e : EngineId) (f : Engine → Engine) : (s.updEngine e f).sched = s.sched := rfl
@[simp] theorem State.updEngine_offerTable (s : State) (e : EngineId) (f : Engine → Engine) : (s.updEngine e f).offerTable = s.offerTable := rfl
@[simp] theorem State.updEngine_coc (s : State) (e : EngineId) (f : Engine → Engine) : (s.updEngine e f).coc = s.coc := rfl
@[simp] theorem State.updEngine_claims (s : State) (e : EngineId) (f : Engine → Engine) : (s.updEngine e f).claims = s.claims := rfl
@[simp] theorem State.updEngine_carriages (s : State) (e : EngineId) (f : Engine → Engine) : (s.updEngine e f).carriages = s.carriages := rfl
@[simp] theorem State.updEngine_modules (s : State) (e : EngineId) (f : Engine → Engine) : (s.updEngine e f).modules = s.modules := rfl
@[simp] theorem State.updEngine_lanes (s : State) (e : EngineId) (f : Engine → Engine) : (s.updEngine e f).lanes = s.lanes := rfl
@[simp] theorem State.updEngine_engines (s : State) (e : EngineId) (f : Engine → Engine) : (s.updEngine e f).engines = s.engines.set e (f (s.engines.get e)) := rfl
@[simp] theorem State.updEngine_csw (s : State) (e : EngineId) (f : Engine → Engine) : (s.updEngine e f).csw = s.csw := rfl
@[simp] theorem State.updEngine_button (s : State) (e : EngineId) (f : Engine → Engine) : (s.updEngine e f).button = s.button := rfl
@[simp] theorem State.updEngine_lamp (s : State) (e : EngineId) (f : Engine → Engine) : (s.updEngine e f).lamp = s.lamp := rfl
@[simp] theorem State.updEngine_supply (s : State) (e : EngineId) (f : Engine → Engine) : (s.updEngine e f).supply = s.supply := rfl
@[simp] theorem State.updEngine_band (s : State) (e : EngineId) (f : Engine → Engine) : (s.updEngine e f).band = s.band := rfl
@[simp] theorem State.updEngine_counters (s : State) (e : EngineId) (f : Engine → Engine) : (s.updEngine e f).counters = s.counters := rfl
@[simp] theorem State.updEngine_svc (s : State) (e : EngineId) (f : Engine → Engine) : (s.updEngine e f).svc = s.svc := rfl
@[simp] theorem State.updEngine_notices (s : State) (e : EngineId) (f : Engine → Engine) : (s.updEngine e f).notices = s.notices := rfl
@[simp] theorem State.updEngine_out (s : State) (e : EngineId) (f : Engine → Engine) : (s.updEngine e f).out = s.out := rfl
@[simp] theorem State.updEngine_freeTick (s : State) (e : EngineId) (f : Engine → Engine) : (s.updEngine e f).freeTick = s.freeTick := rfl
@[simp] theorem State.updEngine_pending (s : State) (e : EngineId) (f : Engine → Engine) : (s.updEngine e f).pending = s.pending := rfl

@[simp] theorem State.updCoc_now (s : State) (f : Origin → Origin) : (s.updCoc f).now = s.now := rfl
@[simp] theorem State.updCoc_inReset (s : State) (f : Origin → Origin) : (s.updCoc f).inReset = s.inReset := rfl
@[simp] theorem State.updCoc_powerOnHold (s : State) (f : Origin → Origin) : (s.updCoc f).powerOnHold = s.powerOnHold := rfl
@[simp] theorem State.updCoc_straps (s : State) (f : Origin → Origin) : (s.updCoc f).straps = s.straps := rfl
@[simp] theorem State.updCoc_sched (s : State) (f : Origin → Origin) : (s.updCoc f).sched = s.sched := rfl
@[simp] theorem State.updCoc_offerTable (s : State) (f : Origin → Origin) : (s.updCoc f).offerTable = s.offerTable := rfl
@[simp] theorem State.updCoc_coc (s : State) (f : Origin → Origin) : (s.updCoc f).coc = f s.coc := rfl
@[simp] theorem State.updCoc_claims (s : State) (f : Origin → Origin) : (s.updCoc f).claims = s.claims := rfl
@[simp] theorem State.updCoc_carriages (s : State) (f : Origin → Origin) : (s.updCoc f).carriages = s.carriages := rfl
@[simp] theorem State.updCoc_modules (s : State) (f : Origin → Origin) : (s.updCoc f).modules = s.modules := rfl
@[simp] theorem State.updCoc_lanes (s : State) (f : Origin → Origin) : (s.updCoc f).lanes = s.lanes := rfl
@[simp] theorem State.updCoc_engines (s : State) (f : Origin → Origin) : (s.updCoc f).engines = s.engines := rfl
@[simp] theorem State.updCoc_csw (s : State) (f : Origin → Origin) : (s.updCoc f).csw = s.csw := rfl
@[simp] theorem State.updCoc_button (s : State) (f : Origin → Origin) : (s.updCoc f).button = s.button := rfl
@[simp] theorem State.updCoc_lamp (s : State) (f : Origin → Origin) : (s.updCoc f).lamp = s.lamp := rfl
@[simp] theorem State.updCoc_supply (s : State) (f : Origin → Origin) : (s.updCoc f).supply = s.supply := rfl
@[simp] theorem State.updCoc_band (s : State) (f : Origin → Origin) : (s.updCoc f).band = s.band := rfl
@[simp] theorem State.updCoc_counters (s : State) (f : Origin → Origin) : (s.updCoc f).counters = s.counters := rfl
@[simp] theorem State.updCoc_svc (s : State) (f : Origin → Origin) : (s.updCoc f).svc = s.svc := rfl
@[simp] theorem State.updCoc_notices (s : State) (f : Origin → Origin) : (s.updCoc f).notices = s.notices := rfl
@[simp] theorem State.updCoc_out (s : State) (f : Origin → Origin) : (s.updCoc f).out = s.out := rfl
@[simp] theorem State.updCoc_freeTick (s : State) (f : Origin → Origin) : (s.updCoc f).freeTick = s.freeTick := rfl
@[simp] theorem State.updCoc_pending (s : State) (f : Origin → Origin) : (s.updCoc f).pending = s.pending := rfl

@[simp] theorem State.updCsw_now (s : State) (f : Switch → Switch) : (s.updCsw f).now = s.now := rfl
@[simp] theorem State.updCsw_inReset (s : State) (f : Switch → Switch) : (s.updCsw f).inReset = s.inReset := rfl
@[simp] theorem State.updCsw_powerOnHold (s : State) (f : Switch → Switch) : (s.updCsw f).powerOnHold = s.powerOnHold := rfl
@[simp] theorem State.updCsw_straps (s : State) (f : Switch → Switch) : (s.updCsw f).straps = s.straps := rfl
@[simp] theorem State.updCsw_sched (s : State) (f : Switch → Switch) : (s.updCsw f).sched = s.sched := rfl
@[simp] theorem State.updCsw_offerTable (s : State) (f : Switch → Switch) : (s.updCsw f).offerTable = s.offerTable := rfl
@[simp] theorem State.updCsw_coc (s : State) (f : Switch → Switch) : (s.updCsw f).coc = s.coc := rfl
@[simp] theorem State.updCsw_claims (s : State) (f : Switch → Switch) : (s.updCsw f).claims = s.claims := rfl
@[simp] theorem State.updCsw_carriages (s : State) (f : Switch → Switch) : (s.updCsw f).carriages = s.carriages := rfl
@[simp] theorem State.updCsw_modules (s : State) (f : Switch → Switch) : (s.updCsw f).modules = s.modules := rfl
@[simp] theorem State.updCsw_lanes (s : State) (f : Switch → Switch) : (s.updCsw f).lanes = s.lanes := rfl
@[simp] theorem State.updCsw_engines (s : State) (f : Switch → Switch) : (s.updCsw f).engines = s.engines := rfl
@[simp] theorem State.updCsw_csw (s : State) (f : Switch → Switch) : (s.updCsw f).csw = f s.csw := rfl
@[simp] theorem State.updCsw_button (s : State) (f : Switch → Switch) : (s.updCsw f).button = s.button := rfl
@[simp] theorem State.updCsw_lamp (s : State) (f : Switch → Switch) : (s.updCsw f).lamp = s.lamp := rfl
@[simp] theorem State.updCsw_supply (s : State) (f : Switch → Switch) : (s.updCsw f).supply = s.supply := rfl
@[simp] theorem State.updCsw_band (s : State) (f : Switch → Switch) : (s.updCsw f).band = s.band := rfl
@[simp] theorem State.updCsw_counters (s : State) (f : Switch → Switch) : (s.updCsw f).counters = s.counters := rfl
@[simp] theorem State.updCsw_svc (s : State) (f : Switch → Switch) : (s.updCsw f).svc = s.svc := rfl
@[simp] theorem State.updCsw_notices (s : State) (f : Switch → Switch) : (s.updCsw f).notices = s.notices := rfl
@[simp] theorem State.updCsw_out (s : State) (f : Switch → Switch) : (s.updCsw f).out = s.out := rfl
@[simp] theorem State.updCsw_freeTick (s : State) (f : Switch → Switch) : (s.updCsw f).freeTick = s.freeTick := rfl
@[simp] theorem State.updCsw_pending (s : State) (f : Switch → Switch) : (s.updCsw f).pending = s.pending := rfl

@[simp] theorem State.updBand_now (s : State) (f : Band → Band) : (s.updBand f).now = s.now := rfl
@[simp] theorem State.updBand_inReset (s : State) (f : Band → Band) : (s.updBand f).inReset = s.inReset := rfl
@[simp] theorem State.updBand_powerOnHold (s : State) (f : Band → Band) : (s.updBand f).powerOnHold = s.powerOnHold := rfl
@[simp] theorem State.updBand_straps (s : State) (f : Band → Band) : (s.updBand f).straps = s.straps := rfl
@[simp] theorem State.updBand_sched (s : State) (f : Band → Band) : (s.updBand f).sched = s.sched := rfl
@[simp] theorem State.updBand_offerTable (s : State) (f : Band → Band) : (s.updBand f).offerTable = s.offerTable := rfl
@[simp] theorem State.updBand_coc (s : State) (f : Band → Band) : (s.updBand f).coc = s.coc := rfl
@[simp] theorem State.updBand_claims (s : State) (f : Band → Band) : (s.updBand f).claims = s.claims := rfl
@[simp] theorem State.updBand_carriages (s : State) (f : Band → Band) : (s.updBand f).carriages = s.carriages := rfl
@[simp] theorem State.updBand_modules (s : State) (f : Band → Band) : (s.updBand f).modules = s.modules := rfl
@[simp] theorem State.updBand_lanes (s : State) (f : Band → Band) : (s.updBand f).lanes = s.lanes := rfl
@[simp] theorem State.updBand_engines (s : State) (f : Band → Band) : (s.updBand f).engines = s.engines := rfl
@[simp] theorem State.updBand_csw (s : State) (f : Band → Band) : (s.updBand f).csw = s.csw := rfl
@[simp] theorem State.updBand_button (s : State) (f : Band → Band) : (s.updBand f).button = s.button := rfl
@[simp] theorem State.updBand_lamp (s : State) (f : Band → Band) : (s.updBand f).lamp = s.lamp := rfl
@[simp] theorem State.updBand_supply (s : State) (f : Band → Band) : (s.updBand f).supply = s.supply := rfl
@[simp] theorem State.updBand_band (s : State) (f : Band → Band) : (s.updBand f).band = f s.band := rfl
@[simp] theorem State.updBand_counters (s : State) (f : Band → Band) : (s.updBand f).counters = s.counters := rfl
@[simp] theorem State.updBand_svc (s : State) (f : Band → Band) : (s.updBand f).svc = s.svc := rfl
@[simp] theorem State.updBand_notices (s : State) (f : Band → Band) : (s.updBand f).notices = s.notices := rfl
@[simp] theorem State.updBand_out (s : State) (f : Band → Band) : (s.updBand f).out = s.out := rfl
@[simp] theorem State.updBand_freeTick (s : State) (f : Band → Band) : (s.updBand f).freeTick = s.freeTick := rfl
@[simp] theorem State.updBand_pending (s : State) (f : Band → Band) : (s.updBand f).pending = s.pending := rfl

@[simp] theorem State.updSched_now (s : State) (f : OfferSchedule → OfferSchedule) : (s.updSched f).now = s.now := rfl
@[simp] theorem State.updSched_inReset (s : State) (f : OfferSchedule → OfferSchedule) : (s.updSched f).inReset = s.inReset := rfl
@[simp] theorem State.updSched_powerOnHold (s : State) (f : OfferSchedule → OfferSchedule) : (s.updSched f).powerOnHold = s.powerOnHold := rfl
@[simp] theorem State.updSched_straps (s : State) (f : OfferSchedule → OfferSchedule) : (s.updSched f).straps = s.straps := rfl
@[simp] theorem State.updSched_sched (s : State) (f : OfferSchedule → OfferSchedule) : (s.updSched f).sched = f s.sched := rfl
@[simp] theorem State.updSched_offerTable (s : State) (f : OfferSchedule → OfferSchedule) : (s.updSched f).offerTable = s.offerTable := rfl
@[simp] theorem State.updSched_coc (s : State) (f : OfferSchedule → OfferSchedule) : (s.updSched f).coc = s.coc := rfl
@[simp] theorem State.updSched_claims (s : State) (f : OfferSchedule → OfferSchedule) : (s.updSched f).claims = s.claims := rfl
@[simp] theorem State.updSched_carriages (s : State) (f : OfferSchedule → OfferSchedule) : (s.updSched f).carriages = s.carriages := rfl
@[simp] theorem State.updSched_modules (s : State) (f : OfferSchedule → OfferSchedule) : (s.updSched f).modules = s.modules := rfl
@[simp] theorem State.updSched_lanes (s : State) (f : OfferSchedule → OfferSchedule) : (s.updSched f).lanes = s.lanes := rfl
@[simp] theorem State.updSched_engines (s : State) (f : OfferSchedule → OfferSchedule) : (s.updSched f).engines = s.engines := rfl
@[simp] theorem State.updSched_csw (s : State) (f : OfferSchedule → OfferSchedule) : (s.updSched f).csw = s.csw := rfl
@[simp] theorem State.updSched_button (s : State) (f : OfferSchedule → OfferSchedule) : (s.updSched f).button = s.button := rfl
@[simp] theorem State.updSched_lamp (s : State) (f : OfferSchedule → OfferSchedule) : (s.updSched f).lamp = s.lamp := rfl
@[simp] theorem State.updSched_supply (s : State) (f : OfferSchedule → OfferSchedule) : (s.updSched f).supply = s.supply := rfl
@[simp] theorem State.updSched_band (s : State) (f : OfferSchedule → OfferSchedule) : (s.updSched f).band = s.band := rfl
@[simp] theorem State.updSched_counters (s : State) (f : OfferSchedule → OfferSchedule) : (s.updSched f).counters = s.counters := rfl
@[simp] theorem State.updSched_svc (s : State) (f : OfferSchedule → OfferSchedule) : (s.updSched f).svc = s.svc := rfl
@[simp] theorem State.updSched_notices (s : State) (f : OfferSchedule → OfferSchedule) : (s.updSched f).notices = s.notices := rfl
@[simp] theorem State.updSched_out (s : State) (f : OfferSchedule → OfferSchedule) : (s.updSched f).out = s.out := rfl
@[simp] theorem State.updSched_freeTick (s : State) (f : OfferSchedule → OfferSchedule) : (s.updSched f).freeTick = s.freeTick := rfl
@[simp] theorem State.updSched_pending (s : State) (f : OfferSchedule → OfferSchedule) : (s.updSched f).pending = s.pending := rfl

@[simp] theorem State.count_now (s : State) (f : Counters → Counters) : (s.count f).now = s.now := rfl
@[simp] theorem State.count_inReset (s : State) (f : Counters → Counters) : (s.count f).inReset = s.inReset := rfl
@[simp] theorem State.count_powerOnHold (s : State) (f : Counters → Counters) : (s.count f).powerOnHold = s.powerOnHold := rfl
@[simp] theorem State.count_straps (s : State) (f : Counters → Counters) : (s.count f).straps = s.straps := rfl
@[simp] theorem State.count_sched (s : State) (f : Counters → Counters) : (s.count f).sched = s.sched := rfl
@[simp] theorem State.count_offerTable (s : State) (f : Counters → Counters) : (s.count f).offerTable = s.offerTable := rfl
@[simp] theorem State.count_coc (s : State) (f : Counters → Counters) : (s.count f).coc = s.coc := rfl
@[simp] theorem State.count_claims (s : State) (f : Counters → Counters) : (s.count f).claims = s.claims := rfl
@[simp] theorem State.count_carriages (s : State) (f : Counters → Counters) : (s.count f).carriages = s.carriages := rfl
@[simp] theorem State.count_modules (s : State) (f : Counters → Counters) : (s.count f).modules = s.modules := rfl
@[simp] theorem State.count_lanes (s : State) (f : Counters → Counters) : (s.count f).lanes = s.lanes := rfl
@[simp] theorem State.count_engines (s : State) (f : Counters → Counters) : (s.count f).engines = s.engines := rfl
@[simp] theorem State.count_csw (s : State) (f : Counters → Counters) : (s.count f).csw = s.csw := rfl
@[simp] theorem State.count_button (s : State) (f : Counters → Counters) : (s.count f).button = s.button := rfl
@[simp] theorem State.count_lamp (s : State) (f : Counters → Counters) : (s.count f).lamp = s.lamp := rfl
@[simp] theorem State.count_supply (s : State) (f : Counters → Counters) : (s.count f).supply = s.supply := rfl
@[simp] theorem State.count_band (s : State) (f : Counters → Counters) : (s.count f).band = s.band := rfl
@[simp] theorem State.count_counters (s : State) (f : Counters → Counters) : (s.count f).counters = f s.counters := rfl
@[simp] theorem State.count_svc (s : State) (f : Counters → Counters) : (s.count f).svc = s.svc := rfl
@[simp] theorem State.count_notices (s : State) (f : Counters → Counters) : (s.count f).notices = s.notices := rfl
@[simp] theorem State.count_out (s : State) (f : Counters → Counters) : (s.count f).out = s.out := rfl
@[simp] theorem State.count_freeTick (s : State) (f : Counters → Counters) : (s.count f).freeTick = s.freeTick := rfl
@[simp] theorem State.count_pending (s : State) (f : Counters → Counters) : (s.count f).pending = s.pending := rfl

@[simp] theorem State.notify_now (s : State) (n : Notice) : (s.notify n).now = s.now := rfl
@[simp] theorem State.notify_inReset (s : State) (n : Notice) : (s.notify n).inReset = s.inReset := rfl
@[simp] theorem State.notify_powerOnHold (s : State) (n : Notice) : (s.notify n).powerOnHold = s.powerOnHold := rfl
@[simp] theorem State.notify_straps (s : State) (n : Notice) : (s.notify n).straps = s.straps := rfl
@[simp] theorem State.notify_sched (s : State) (n : Notice) : (s.notify n).sched = s.sched := rfl
@[simp] theorem State.notify_offerTable (s : State) (n : Notice) : (s.notify n).offerTable = s.offerTable := rfl
@[simp] theorem State.notify_coc (s : State) (n : Notice) : (s.notify n).coc = s.coc := rfl
@[simp] theorem State.notify_claims (s : State) (n : Notice) : (s.notify n).claims = s.claims := rfl
@[simp] theorem State.notify_carriages (s : State) (n : Notice) : (s.notify n).carriages = s.carriages := rfl
@[simp] theorem State.notify_modules (s : State) (n : Notice) : (s.notify n).modules = s.modules := rfl
@[simp] theorem State.notify_lanes (s : State) (n : Notice) : (s.notify n).lanes = s.lanes := rfl
@[simp] theorem State.notify_engines (s : State) (n : Notice) : (s.notify n).engines = s.engines := rfl
@[simp] theorem State.notify_csw (s : State) (n : Notice) : (s.notify n).csw = s.csw := rfl
@[simp] theorem State.notify_button (s : State) (n : Notice) : (s.notify n).button = s.button := rfl
@[simp] theorem State.notify_lamp (s : State) (n : Notice) : (s.notify n).lamp = s.lamp := rfl
@[simp] theorem State.notify_supply (s : State) (n : Notice) : (s.notify n).supply = s.supply := rfl
@[simp] theorem State.notify_band (s : State) (n : Notice) : (s.notify n).band = s.band := rfl
@[simp] theorem State.notify_counters (s : State) (n : Notice) : (s.notify n).counters = s.counters := rfl
@[simp] theorem State.notify_svc (s : State) (n : Notice) : (s.notify n).svc = s.svc := rfl
@[simp] theorem State.notify_notices (s : State) (n : Notice) : (s.notify n).notices = s.notices ++ [n] := rfl
@[simp] theorem State.notify_out (s : State) (n : Notice) : (s.notify n).out = s.out := rfl
@[simp] theorem State.notify_freeTick (s : State) (n : Notice) : (s.notify n).freeTick = s.freeTick := rfl
@[simp] theorem State.notify_pending (s : State) (n : Notice) : (s.notify n).pending = s.pending := rfl

@[simp] theorem State.emit_now (s : State) (o : Output) : (s.emit o).now = s.now := rfl
@[simp] theorem State.emit_inReset (s : State) (o : Output) : (s.emit o).inReset = s.inReset := rfl
@[simp] theorem State.emit_powerOnHold (s : State) (o : Output) : (s.emit o).powerOnHold = s.powerOnHold := rfl
@[simp] theorem State.emit_straps (s : State) (o : Output) : (s.emit o).straps = s.straps := rfl
@[simp] theorem State.emit_sched (s : State) (o : Output) : (s.emit o).sched = s.sched := rfl
@[simp] theorem State.emit_offerTable (s : State) (o : Output) : (s.emit o).offerTable = s.offerTable := rfl
@[simp] theorem State.emit_coc (s : State) (o : Output) : (s.emit o).coc = s.coc := rfl
@[simp] theorem State.emit_claims (s : State) (o : Output) : (s.emit o).claims = s.claims := rfl
@[simp] theorem State.emit_carriages (s : State) (o : Output) : (s.emit o).carriages = s.carriages := rfl
@[simp] theorem State.emit_modules (s : State) (o : Output) : (s.emit o).modules = s.modules := rfl
@[simp] theorem State.emit_lanes (s : State) (o : Output) : (s.emit o).lanes = s.lanes := rfl
@[simp] theorem State.emit_engines (s : State) (o : Output) : (s.emit o).engines = s.engines := rfl
@[simp] theorem State.emit_csw (s : State) (o : Output) : (s.emit o).csw = s.csw := rfl
@[simp] theorem State.emit_button (s : State) (o : Output) : (s.emit o).button = s.button := rfl
@[simp] theorem State.emit_lamp (s : State) (o : Output) : (s.emit o).lamp = s.lamp := rfl
@[simp] theorem State.emit_supply (s : State) (o : Output) : (s.emit o).supply = s.supply := rfl
@[simp] theorem State.emit_band (s : State) (o : Output) : (s.emit o).band = s.band := rfl
@[simp] theorem State.emit_counters (s : State) (o : Output) : (s.emit o).counters = s.counters := rfl
@[simp] theorem State.emit_svc (s : State) (o : Output) : (s.emit o).svc = s.svc := rfl
@[simp] theorem State.emit_notices (s : State) (o : Output) : (s.emit o).notices = s.notices := rfl
@[simp] theorem State.emit_out (s : State) (o : Output) : (s.emit o).out = s.out ++ [o] := rfl
@[simp] theorem State.emit_freeTick (s : State) (o : Output) : (s.emit o).freeTick = s.freeTick := rfl
@[simp] theorem State.emit_pending (s : State) (o : Output) : (s.emit o).pending = s.pending := rfl

@[simp] theorem State.dropFrame_now (s : State) : (s.dropFrame).now = s.now := rfl
@[simp] theorem State.dropFrame_inReset (s : State) : (s.dropFrame).inReset = s.inReset := rfl
@[simp] theorem State.dropFrame_powerOnHold (s : State) : (s.dropFrame).powerOnHold = s.powerOnHold := rfl
@[simp] theorem State.dropFrame_straps (s : State) : (s.dropFrame).straps = s.straps := rfl
@[simp] theorem State.dropFrame_sched (s : State) : (s.dropFrame).sched = s.sched := rfl
@[simp] theorem State.dropFrame_offerTable (s : State) : (s.dropFrame).offerTable = s.offerTable := rfl
@[simp] theorem State.dropFrame_coc (s : State) : (s.dropFrame).coc = s.coc := rfl
@[simp] theorem State.dropFrame_claims (s : State) : (s.dropFrame).claims = s.claims := rfl
@[simp] theorem State.dropFrame_carriages (s : State) : (s.dropFrame).carriages = s.carriages := rfl
@[simp] theorem State.dropFrame_modules (s : State) : (s.dropFrame).modules = s.modules := rfl
@[simp] theorem State.dropFrame_lanes (s : State) : (s.dropFrame).lanes = s.lanes := rfl
@[simp] theorem State.dropFrame_engines (s : State) : (s.dropFrame).engines = s.engines := rfl
@[simp] theorem State.dropFrame_csw (s : State) : (s.dropFrame).csw = s.csw := rfl
@[simp] theorem State.dropFrame_button (s : State) : (s.dropFrame).button = s.button := rfl
@[simp] theorem State.dropFrame_lamp (s : State) : (s.dropFrame).lamp = s.lamp := rfl
@[simp] theorem State.dropFrame_supply (s : State) : (s.dropFrame).supply = s.supply := rfl
@[simp] theorem State.dropFrame_band (s : State) : (s.dropFrame).band = s.band := rfl
@[simp] theorem State.dropFrame_counters (s : State) : (s.dropFrame).counters = { s.counters with framesDropped := satInc s.counters.framesDropped } := rfl
@[simp] theorem State.dropFrame_svc (s : State) : (s.dropFrame).svc = s.svc := rfl
@[simp] theorem State.dropFrame_notices (s : State) : (s.dropFrame).notices = s.notices := rfl
@[simp] theorem State.dropFrame_out (s : State) : (s.dropFrame).out = s.out := rfl
@[simp] theorem State.dropFrame_freeTick (s : State) : (s.dropFrame).freeTick = s.freeTick := rfl
@[simp] theorem State.dropFrame_pending (s : State) : (s.dropFrame).pending = s.pending := rfl

/-! ## The accessors -/

@[simp] theorem State.mod_eq (s : State) (m : Mod) : s.mod m = s.modules.get m := rfl
@[simp] theorem State.car_eq (s : State) (m : Mod) : s.car m = s.carriages.get m := rfl
@[simp] theorem State.lane_eq (s : State) (l : Lane) : s.lane l = s.lanes.get l := rfl
@[simp] theorem State.engine_eq (s : State) (e : EngineId) : s.engine e = s.engines.get e := rfl

end Sys2Proof.Machine
end

