-- ==== Sys2Proof/Laws/Keeps.lean ====
section
/-! SUPPORT. What every operation inside an event keeps: the straps, the time, the waiting commands, a duplicate-number fault
once set, and soundness. One lemma for each shared operation; the lemmas chain by simp. -/

namespace Sys2Proof.Machine

/-- What any operation of an event keeps between two states. -/
structure Keeps (a b : State) : Prop where
  straps : b.straps = a.straps
  inReset : b.inReset = a.inReset
  now : b.now = a.now
  pending : b.pending = a.pending
  dup : a.band.dupFault = true → b.band.dupFault = true
  sound : a.Sound → b.Sound

namespace Keeps

@[simp] theorem rfl' (a : State) : Keeps a a := ⟨rfl, rfl, rfl, rfl, id, id⟩

theorem trans {a b c : State} (h : Keeps a b) (k : Keeps b c) : Keeps a c :=
  ⟨k.straps.trans h.straps, k.inReset.trans h.inReset, k.now.trans h.now, k.pending.trans h.pending,
    k.dup ∘ h.dup, k.sound ∘ h.sound⟩

/-- A change of fields that soundness does not read. -/
theorem ofFields {a s t : State} (h : Keeps a s) (h1 : t.straps = s.straps) (h2 : t.inReset = s.inReset)
    (h3 : t.now = s.now) (h4 : t.pending = s.pending) (h5 : t.band = s.band) (h6 : t.claims = s.claims)
    (h7 : t.coc.avoid = s.coc.avoid) (h8 : t.offerTable = s.offerTable) (h9 : t.modules = s.modules)
    (h10 : t.engines = s.engines) (h11 : t.lanes = s.lanes) : Keeps a t :=
  h.trans ⟨h1, h2, h3, h4, by rw [h5]; exact id, fun k =>
    ⟨by rw [h5, State.own, h1]; exact k.queue, by rw [h6]; exact k.claims, by rw [h7]; exact k.avoid,
      by rw [h8, State.own, h1]; exact k.offers, by rw [h9]; exact k.nets, by rw [h10]; exact k.compare,
      by rw [h11, State.own, h1]; exact k.owned⟩⟩

variable {a s : State}

@[simp] theorem setCar (h : Keeps a s) (m : Mod) (c : Option Carriage) : Keeps a (s.setCar m c) :=
  h.ofFields rfl rfl rfl rfl rfl rfl rfl rfl rfl rfl rfl

@[simp] theorem updCar (h : Keeps a s) (m : Mod) (f : Carriage → Carriage) : Keeps a (s.updCar m f) :=
  h.ofFields rfl rfl rfl rfl rfl rfl rfl rfl rfl rfl rfl

@[simp] theorem updCsw (h : Keeps a s) (f : Switch → Switch) : Keeps a (s.updCsw f) :=
  h.ofFields rfl rfl rfl rfl rfl rfl rfl rfl rfl rfl rfl

@[simp] theorem updSched (h : Keeps a s) (f : OfferSchedule → OfferSchedule) : Keeps a (s.updSched f) :=
  h.ofFields rfl rfl rfl rfl rfl rfl rfl rfl rfl rfl rfl

@[simp] theorem count (h : Keeps a s) (f : Counters → Counters) : Keeps a (s.count f) :=
  h.ofFields rfl rfl rfl rfl rfl rfl rfl rfl rfl rfl rfl

@[simp] theorem notify (h : Keeps a s) (n : Notice) : Keeps a (s.notify n) :=
  h.ofFields rfl rfl rfl rfl rfl rfl rfl rfl rfl rfl rfl

@[simp] theorem emit (h : Keeps a s) (o : Output) : Keeps a (s.emit o) :=
  h.ofFields rfl rfl rfl rfl rfl rfl rfl rfl rfl rfl rfl

@[simp] theorem dropFrame (h : Keeps a s) : Keeps a s.dropFrame := h.count _

@[simp] theorem withSvc (h : Keeps a s) (x : Service) : Keeps a { s with svc := x } :=
  h.ofFields rfl rfl rfl rfl rfl rfl rfl rfl rfl rfl rfl

@[simp] theorem withLamp (h : Keeps a s) (x : Lamp) : Keeps a { s with lamp := x } :=
  h.ofFields rfl rfl rfl rfl rfl rfl rfl rfl rfl rfl rfl

@[simp] theorem withSupply (h : Keeps a s) (x : SupplyMonitor) : Keeps a { s with supply := x } :=
  h.ofFields rfl rfl rfl rfl rfl rfl rfl rfl rfl rfl rfl

@[simp] theorem withButton (h : Keeps a s) (x : ButtonFilter) : Keeps a { s with button := x } :=
  h.ofFields rfl rfl rfl rfl rfl rfl rfl rfl rfl rfl rfl

@[simp] theorem withSched (h : Keeps a s) (x : OfferSchedule) : Keeps a { s with sched := x } :=
  h.ofFields rfl rfl rfl rfl rfl rfl rfl rfl rfl rfl rfl

@[simp] theorem withTick (h : Keeps a s) (x : Nat) : Keeps a { s with freeTick := x } :=
  h.ofFields rfl rfl rfl rfl rfl rfl rfl rfl rfl rfl rfl

@[simp] theorem withNotices (h : Keeps a s) (x : List Notice) : Keeps a { s with notices := x } :=
  h.ofFields rfl rfl rfl rfl rfl rfl rfl rfl rfl rfl rfl

theorem updMod (h : Keeps a s) {m : Mod} {f : Module → Module}
    (k : ∀ r, netTableOk r.table → netTableOk (f r).table) : Keeps a (s.updMod m f) :=
  h.trans ⟨rfl, rfl, rfl, rfl, id, fun q => ⟨q.queue, q.claims, q.avoid, q.offers, fun n => by
    by_cases e : n = m
    · subst e; simpa using k _ (q.nets n)
    · simpa [PerMod.get_set_ne _ _ _ _ e] using q.nets n, q.compare, q.owned⟩⟩

/-- A change of a module that leaves its table. -/
@[simp] theorem updModTable (h : Keeps a s) (m : Mod) (f : Module → Module) (k : ∀ r, (f r).table = r.table) :
    Keeps a (s.updMod m f) := h.updMod fun r q => by rw [k]; exact q

theorem updCoc (h : Keeps a s) {f : Origin → Origin} (k : avoidOk s.coc.avoid → avoidOk (f s.coc).avoid) :
    Keeps a (s.updCoc f) :=
  h.trans ⟨rfl, rfl, rfl, rfl, id, fun q => ⟨q.queue, q.claims, k q.avoid, q.offers, q.nets, q.compare, q.owned⟩⟩

/-- A change of the origin record that leaves its avoid list. -/
@[simp] theorem updCocAvoid (h : Keeps a s) (f : Origin → Origin) (k : ∀ c, (f c).avoid = c.avoid) :
    Keeps a (s.updCoc f) := h.updCoc fun q => by rw [k]; exact q

@[simp] theorem updLane (h : Keeps a s) (l : Lane) (f : LaneEntry → LaneEntry)
    (k : (s.lanes.get l).ownedOk s.own → (f (s.lanes.get l)).ownedOk s.own) : Keeps a (s.updLane l f) :=
  h.trans ⟨rfl, rfl, rfl, rfl, id, fun q => ⟨q.queue, q.claims, q.avoid, q.offers, q.nets, q.compare, fun n => by
    show LaneEntry.ownedOk s.own _
    by_cases e : n = l
    · subst e; simpa using k (q.owned n)
    · simpa [PerLane.get_set_ne _ _ _ _ e] using q.owned n⟩⟩

@[simp] theorem updEngine (h : Keeps a s) (e : EngineId) (f : Engine → Engine)
    (k : (s.engines.get e).compareOk → (f (s.engines.get e)).compareOk) : Keeps a (s.updEngine e f) :=
  h.trans ⟨rfl, rfl, rfl, rfl, id, fun q => ⟨q.queue, q.claims, q.avoid, q.offers, q.nets, fun n => by
    by_cases i : n = e
    · subst i; simpa using k (q.compare n)
    · simpa [PerEngine.get_set_ne _ _ _ _ i] using q.compare n, q.owned⟩⟩

@[simp] theorem updBand (h : Keeps a s) (f : Band → Band) (k : s.band.fits s.own → (f s.band).fits s.own)
    (d : s.band.dupFault = true → (f s.band).dupFault = true) : Keeps a (s.updBand f) :=
  h.trans ⟨rfl, rfl, rfl, rfl, d, fun q => ⟨k q.queue, q.claims, q.avoid, q.offers, q.nets, q.compare, q.owned⟩⟩

theorem withBand (h : Keeps a s) {x : Band} (k : s.band.fits s.own → x.fits s.own)
    (d : s.band.dupFault = true → x.dupFault = true) : Keeps a { s with band := x } := h.updBand (fun _ => x) k d

theorem withClaims (h : Keeps a s) {x : List ClaimEntry} (k : s.claims.length ≤ 6 → x.length ≤ 6) :
    Keeps a { s with claims := x } :=
  h.trans ⟨rfl, rfl, rfl, rfl, id, fun q => ⟨q.queue, k q.claims, q.avoid, q.offers, q.nets, q.compare, q.owned⟩⟩

theorem withOffers (h : Keeps a s) {x : List OfferEntry} (k : offerTableOk s.own s.offerTable → offerTableOk s.own x) :
    Keeps a { s with offerTable := x } :=
  h.trans ⟨rfl, rfl, rfl, rfl, id, fun q => ⟨q.queue, q.claims, q.avoid, k q.offers, q.nets, q.compare, q.owned⟩⟩

theorem withEngines (h : Keeps a s) {x : PerEngine Engine}
    (k : (∀ e, (s.engines.get e).compareOk) → ∀ e, (x.get e).compareOk) : Keeps a { s with engines := x } :=
  h.trans ⟨rfl, rfl, rfl, rfl, id, fun q => ⟨q.queue, q.claims, q.avoid, q.offers, q.nets, k q.compare, q.owned⟩⟩

/-- An operation chosen by a condition. -/
theorem ite' {p : Prop} [Decidable p] {x y : State} (h : Keeps a x) (k : Keeps a y) : Keeps a (if p then x else y) := by
  split <;> assumption

end Keeps

end Sys2Proof.Machine
end

