-- ==== Sys2Proof/Laws/Band.lean ====
section
/-! SUPPORT. The transmit queue keeps its bounds, and what a hand-over does (R167 to R169). -/

namespace Sys2Proof.Machine

/-! ## Bounds -/

theorem withoutWait_length {l r : List Frame} (h : withoutWait l = some r) : r.length + 1 = l.length := by
  induction l generalizing r with
  | nil => simp [withoutWait] at h
  | cons f rest ih =>
    unfold withoutWait at h
    split at h
    · cases h; rfl
    · cases k : withoutWait rest with
      | none => simp [k] at h
      | some x => simp [k] at h; subst h; simp [ih k]

theorem Band.displaceWait_length {b : Band} {r : List Frame} (h : b.displaceWait = some r) :
    r.length + 1 = b.calls.length := by
  unfold Band.displaceWait at h
  split at h
  · split at h
    · cases h
    · rename_i f rest e
      cases k : withoutWait rest with
      | none => simp [k] at h
      | some x => simp [k] at h; subst h; simp [e, withoutWait_length k]
  · exact withoutWait_length h

@[simp] theorem Band.takeHand_calls (b : Band) : b.takeHand.calls = b.calls := by
  unfold Band.takeHand; split <;> [rfl; (split <;> rfl)]
@[simp] theorem Band.takeHand_offer (b : Band) : b.takeHand.offer = b.offer := by
  unfold Band.takeHand; split <;> [rfl; (split <;> rfl)]
@[simp] theorem Band.takeHand_services (b : Band) : b.takeHand.services = b.services := by
  unfold Band.takeHand; split <;> [rfl; (split <;> rfl)]
@[simp] theorem Band.takeHand_dupFault (b : Band) : b.takeHand.dupFault = b.dupFault := by
  unfold Band.takeHand; split <;> [rfl; (split <;> rfl)]
@[simp] theorem Band.takeHand_quietSince (b : Band) : b.takeHand.quietSince = b.quietSince := by
  unfold Band.takeHand; split <;> [rfl; (split <;> rfl)]

/-- The same queue, and no frame in hand when there was none. -/
theorem Band.fits_congr {n : Station} {b c : Band} (h1 : c.calls = b.calls) (h2 : c.offer = b.offer)
    (h3 : c.services = b.services) (h4 : b.size = 0 → b.hand = none → c.hand = none) (h : b.fits n) : c.fits n := by
  have e : c.size = b.size := by unfold Band.size; rw [h1, h2, h3]
  unfold Band.fits at *
  rw [e, h3]
  exact ⟨h.1, h.2.1, fun z => ⟨(h.2.2 z).1, h4 (h.2.2 z).1 (h.2.2 z).2⟩⟩

theorem Band.takeHand_empty {b : Band} (h : b.size = 0) (k : b.hand = none) : b.takeHand.hand = none := by
  unfold Band.size at h
  have h1 : b.calls = [] := by
    cases e : b.calls with
    | nil => rfl
    | cons x xs => simp [e] at h
  have h2 : b.offer = none := by
    cases e : b.offer with
    | none => rfl
    | some x => simp [e] at h
  have h3 : b.services = [] := by
    cases e : b.services with
    | nil => rfl
    | cons x xs => simp [e] at h
  unfold Band.takeHand Band.firstClass
  rw [k, h1, h2, h3]; exact k

theorem Band.takeHand_fits {n : Station} {b : Band} (h : b.fits n) : b.takeHand.fits n :=
  Band.fits_congr (by simp) (by simp) (by simp) Band.takeHand_empty h

theorem Band.add_fits {n : Station} {b : Band} (f : Frame) (z : n ≠ 0) (h : b.fits n) : (b.add f).1.fits n := by
  suffices k : (b.add f).1.size ≤ 12 ∧ (b.add f).1.services.length ≤ 2 from ⟨k.1, k.2, fun e => absurd e z⟩
  replace h : b.size ≤ 12 ∧ b.services.length ≤ 2 := ⟨h.1, h.2.1⟩
  unfold Band.add
  cases frameClass f.kind with
  | call =>
    simp only [Band.addCall]
    split
    · rename_i k; unfold Band.size at *; simp at *; omega
    · split
      · rename_i r e; have := Band.displaceWait_length e; unfold Band.size at *; simp at *; omega
      · exact h
  | offer =>
    simp only [Band.addOffer]
    split
    · rename_i g e; unfold Band.size at *; simp [e] at *; omega
    · split
      · rename_i e k; unfold Band.size at *; simp [e] at *; omega
      · exact h
  | service =>
    simp only [Band.addService]
    split
    · rename_i k; unfold Band.size at *; simp at *; omega
    · exact h

theorem Band.add_dupFault (b : Band) (f : Frame) : (b.add f).1.dupFault = b.dupFault := by
  unfold Band.add
  cases frameClass f.kind with
  | call => simp only [Band.addCall]; split <;> [rfl; (split <;> rfl)]
  | offer => simp only [Band.addOffer]; split <;> [rfl; (split <;> rfl)]
  | service => simp only [Band.addService]; split <;> rfl

theorem Band.removeHand_fits {n : Station} {b : Band} (h : b.fits n) : b.removeHand.fits n := by
  unfold Band.removeHand
  split
  · exact h
  · rename_i x e
    apply Band.takeHand_fits
    have z : n ≠ 0 := fun z => by rw [(h.2.2 z).2] at e; cases e
    suffices k : ∀ c : Band, c.size ≤ 12 ∧ c.services.length ≤ 2 → c.fits n from
      k _ (by
        obtain ⟨h1, h2, -⟩ := h
        unfold Band.size at *
        split <;> simp at * <;> omega)
    exact fun c k => ⟨k.1, k.2, fun e => absurd e z⟩

@[simp] theorem Band.removeHand_dupFault (b : Band) : b.removeHand.dupFault = b.dupFault := by
  unfold Band.removeHand
  split
  · rfl
  · simp only [Band.takeHand_dupFault]; split <;> rfl

/-! ## The hand-over -/

variable {a s : State}

@[simp] theorem handOver_keeps (f : Frame) (h : Keeps a s) : Keeps a (handOver f s) := by
  unfold handOver
  split
  · exact h
  · rename_i z
    have k : Keeps a { s with band := (s.band.add f).1.takeHand } :=
      h.withBand (fun q => Band.takeHand_fits (Band.add_fits f z q))
        (fun d => by rw [Band.takeHand_dupFault, Band.add_dupFault]; exact d)
    dsimp only
    split
    · exact k.dropFrame
    · exact k

/-- Everything a hand-over changes: the transmit queue, and the count of a lost frame (R167, R169). -/
theorem handOver_eq (f : Frame) (s : State) :
    handOver f s =
      if s.own = 0 then s
      else if (s.band.add f).2 then State.dropFrame { s with band := (s.band.add f).1.takeHand }
      else { s with band := (s.band.add f).1.takeHand } := rfl

/-- A hand-over changes the band and the counters only. -/
theorem handOver_form (f : Frame) (s : State) :
    handOver f s = { s with band := (handOver f s).band, counters := (handOver f s).counters } := by
  unfold handOver; split
  · rfl
  · dsimp only; split <;> rfl

/-- What a hand-over makes of the band and the counters depends on the straps, the band and the counters alone. -/
theorem handOver_congr (f : Frame) {s u : State} (h1 : u.straps = s.straps) (h2 : u.band = s.band)
    (h3 : u.counters = s.counters) :
    (handOver f u).band = (handOver f s).band ∧ (handOver f u).counters = (handOver f s).counters := by
  unfold handOver State.own; rw [h1, h2]; split
  · exact ⟨h2, h3⟩
  · dsimp only; split
    · exact ⟨rfl, by simp [State.dropFrame, State.count, h3]⟩
    · exact ⟨rfl, h3⟩

@[simp] theorem handOver_now (f : Frame) (s : State) : (handOver f s).now = s.now := by
  unfold handOver; split <;> [rfl; (dsimp only; split <;> rfl)]
@[simp] theorem handOver_inReset (f : Frame) (s : State) : (handOver f s).inReset = s.inReset := by
  unfold handOver; split <;> [rfl; (dsimp only; split <;> rfl)]
@[simp] theorem handOver_powerOnHold (f : Frame) (s : State) : (handOver f s).powerOnHold = s.powerOnHold := by
  unfold handOver; split <;> [rfl; (dsimp only; split <;> rfl)]
@[simp] theorem handOver_straps (f : Frame) (s : State) : (handOver f s).straps = s.straps := by
  unfold handOver; split <;> [rfl; (dsimp only; split <;> rfl)]
@[simp] theorem handOver_sched (f : Frame) (s : State) : (handOver f s).sched = s.sched := by
  unfold handOver; split <;> [rfl; (dsimp only; split <;> rfl)]
@[simp] theorem handOver_offerTable (f : Frame) (s : State) : (handOver f s).offerTable = s.offerTable := by
  unfold handOver; split <;> [rfl; (dsimp only; split <;> rfl)]
@[simp] theorem handOver_coc (f : Frame) (s : State) : (handOver f s).coc = s.coc := by
  unfold handOver; split <;> [rfl; (dsimp only; split <;> rfl)]
@[simp] theorem handOver_claims (f : Frame) (s : State) : (handOver f s).claims = s.claims := by
  unfold handOver; split <;> [rfl; (dsimp only; split <;> rfl)]
@[simp] theorem handOver_carriages (f : Frame) (s : State) : (handOver f s).carriages = s.carriages := by
  unfold handOver; split <;> [rfl; (dsimp only; split <;> rfl)]
@[simp] theorem handOver_modules (f : Frame) (s : State) : (handOver f s).modules = s.modules := by
  unfold handOver; split <;> [rfl; (dsimp only; split <;> rfl)]
@[simp] theorem handOver_lanes (f : Frame) (s : State) : (handOver f s).lanes = s.lanes := by
  unfold handOver; split <;> [rfl; (dsimp only; split <;> rfl)]
@[simp] theorem handOver_engines (f : Frame) (s : State) : (handOver f s).engines = s.engines := by
  unfold handOver; split <;> [rfl; (dsimp only; split <;> rfl)]
@[simp] theorem handOver_csw (f : Frame) (s : State) : (handOver f s).csw = s.csw := by
  unfold handOver; split <;> [rfl; (dsimp only; split <;> rfl)]
@[simp] theorem handOver_button (f : Frame) (s : State) : (handOver f s).button = s.button := by
  unfold handOver; split <;> [rfl; (dsimp only; split <;> rfl)]
@[simp] theorem handOver_lamp (f : Frame) (s : State) : (handOver f s).lamp = s.lamp := by
  unfold handOver; split <;> [rfl; (dsimp only; split <;> rfl)]
@[simp] theorem handOver_supply (f : Frame) (s : State) : (handOver f s).supply = s.supply := by
  unfold handOver; split <;> [rfl; (dsimp only; split <;> rfl)]
@[simp] theorem handOver_svc (f : Frame) (s : State) : (handOver f s).svc = s.svc := by
  unfold handOver; split <;> [rfl; (dsimp only; split <;> rfl)]
@[simp] theorem handOver_notices (f : Frame) (s : State) : (handOver f s).notices = s.notices := by
  unfold handOver; split <;> [rfl; (dsimp only; split <;> rfl)]
@[simp] theorem handOver_out (f : Frame) (s : State) : (handOver f s).out = s.out := by
  unfold handOver; split <;> [rfl; (dsimp only; split <;> rfl)]
@[simp] theorem handOver_freeTick (f : Frame) (s : State) : (handOver f s).freeTick = s.freeTick := by
  unfold handOver; split <;> [rfl; (dsimp only; split <;> rfl)]
@[simp] theorem handOver_pending (f : Frame) (s : State) : (handOver f s).pending = s.pending := by
  unfold handOver; split <;> [rfl; (dsimp only; split <;> rfl)]

@[simp] theorem emptyBand_keeps (h : Keeps a s) : Keeps a (emptyBand s) := by
  unfold emptyBand
  exact h.updBand _ (fun _ => ⟨by simp [Band.size], by simp, fun _ => ⟨by simp [Band.size], rfl⟩⟩) id

/-- R165: on a quiet band the required quiet is counted from its quiet-since. -/
theorem Band.quietFor_quiet {b : Band} {q : Time} (h : b.quietSince = some q) (need now : Time) :
    b.quietFor need now = decide (q + need ≤ now) := by unfold Band.quietFor; rw [h]

/-- R165: on an active band the required quiet counts only when the start edge is joined. -/
theorem Band.quietFor_active {b : Band} (h : b.quietSince = none) (need now : Time) :
    b.quietFor need now = true ↔
      ∃ e, b.startEdge = some e ∧ e.heardAt ≤ e.quietSince + need ∧ e.quietSince + need ≤ now ∧
        now < e.heardAt + bitTime := by
  unfold Band.quietFor
  rw [h]
  cases b.startEdge <;> simp [StartEdge.joins]

/-- R165: on a quiet band the bits are timed from the station's own start edge. -/
theorem Band.firstEdge_quiet {b : Band} {q : Time} (h : b.quietSince = some q) (now : Time) : b.firstEdge now = now := by
  unfold Band.firstEdge; rw [h]

/-- R165: on an active band the bits are timed from the start edge that is joined. -/
theorem Band.firstEdge_joined {b : Band} {e : StartEdge} (h : b.quietSince = none) (q : b.startEdge = some e) (now : Time) :
    b.firstEdge now = e.heardAt := by
  unfold Band.firstEdge; rw [h, q]; rfl

@[simp] theorem bandActive_keeps (h : Keeps a s) : Keeps a (bandActive s) := by
  unfold bandActive
  exact h.updBand _ (fun q => Band.fits_congr (b := s.band) rfl rfl rfl (fun _ => id) q) id

@[simp] theorem bandFallsQuiet_keeps (h : Keeps a s) : Keeps a (bandFallsQuiet s) := by
  unfold bandFallsQuiet
  split
  · exact h.updBand _ (fun q => Band.fits_congr (b := s.band) rfl rfl rfl (fun _ => id) q) id
  · exact h

/-- R162: with no frame on the line the band is left at rest. -/
theorem bandLine_rest {s : State} (h : s.band.hand.bind Hand.line = none) : bandLine s = true := by
  unfold bandLine; rw [h]

/-- R162: while the station is SENDING, the band carries the bits of the frame on the line. -/
theorem bandLine_sending {s : State} {f : Frame} (h : s.band.hand.bind Hand.line = some f) :
    bandLine s = (frameBits (oct s.own) f).getD ((s.now - s.band.sendSince) / bitTime) true := by
  unfold bandLine; rw [h]

@[simp] theorem startSending_keeps (h : Keeps a s) : Keeps a (startSending s) := by
  unfold startSending
  split
  · exact h.withBand (fun q => Band.fits_congr (b := s.band) rfl rfl rfl (fun _ e => by dsimp only; rw [e]; rfl) q) id
  · exact h

/-- The receiver hunts, and nothing else changes. -/
@[simp] theorem hunt_band (s : State) : (hunt s).band = { s.band with receiving := false } := rfl
@[simp] theorem hunt_own (s : State) : (hunt s).own = s.own := rfl

@[simp] theorem hunt_keeps (h : Keeps a s) : Keeps a (hunt s) :=
  h.updBand _ (fun q => Band.fits_congr (b := s.band) rfl rfl rfl (fun _ => id) q) id

@[simp] theorem discardFrame_keeps (h : Keeps a s) : Keeps a (discardFrame s) := (hunt_keeps h).count _

/-- R163: a frame that the receiver began, of at most 40 payload octets, is read, and the receiver hunts. -/
theorem readFrame_receiving {len : Nat} (act : State → State) (h : s.band.receiving = true) (k : len ≤ 40) :
    readFrame len act s = act (hunt s) := by
  unfold readFrame; rw [if_pos h, if_neg (by omega)]

/-- R163: while the receiver hunts, a frame it did not begin is not read. -/
theorem readFrame_hunting (len : Nat) (act : State → State) (h : s.band.receiving = false) : readFrame len act s = s := by
  unfold readFrame; rw [if_neg (by simp [h])]

theorem readFrame_keeps {len : Nat} {act : State → State} (k : ∀ s, Keeps a s → Keeps a (act s)) (h : Keeps a s) :
    Keeps a (readFrame len act s) :=
  Keeps.ite' (Keeps.ite' (discardFrame_keeps h) (k _ (hunt_keeps h))) h

@[simp] theorem sendingDone_keeps (h : Keeps a s) : Keeps a (sendingDone s) := by
  unfold sendingDone
  split
  · exact h
  · split
    · exact h
    · dsimp only
      split
      · exact (((hunt_keeps h).count _).emit _).updBand _
          (fun q => Band.takeHand_fits (Band.fits_congr (b := s.band) rfl rfl rfl (fun _ _ => rfl) q))
          (fun d => by simpa using d)
      · exact (((hunt_keeps h).count _).emit _).updBand _ Band.removeHand_fits (fun d => by simpa using d)

@[simp] theorem sendingCollides_keeps (h : Keeps a s) : Keeps a (sendingCollides s) := by
  unfold sendingCollides
  split
  · exact h
  · split
    · exact h
    · dsimp only
      split
      · exact (h.count _).updBand _
          (fun q => Band.fits_congr (b := s.band) rfl rfl rfl (fun _ e => by have : s.band.hand = none := e; simp_all) q) id
      · exact ((h.count _).updBand _ Band.removeHand_fits (fun d => by simpa using d)).dropFrame

@[simp] theorem discardReception_keeps (e : RxError) (h : Keeps a s) : Keeps a (discardReception e s) := by
  unfold discardReception
  exact Keeps.ite' (discardFrame_keeps h) h

end Sys2Proof.Machine
end

