-- ==== Sys2Proof/Laws/Switch.lean ====
section
/-! SUPPORT. What the operations of the Carriage Switch and of the Caller Panel keep. -/

namespace Sys2Proof.Machine

variable {a s : State}

@[simp] theorem setRoute_keeps (d : Dest) (src : Source) (o : Owner) (h : Keeps a s) : Keeps a (setRoute d src o s) := by
  unfold setRoute; dsimp only; exact Keeps.ite' h (h.updCsw _)

@[simp] theorem clearRoute_keeps (d : Dest) (o : Owner) (h : Keeps a s) : Keeps a (clearRoute d o s) := h.updCsw _

@[simp] theorem clearRoutes_keeps (o : Owner) (h : Keeps a s) : Keeps a (clearRoutes o s) := h.updCsw _

@[simp] theorem endHold_keeps (d : Dest) (h : Keeps a s) : Keeps a (endHold d s) := Keeps.ite' (h.updCsw _) h

@[simp] theorem setGapMark_keeps (l : Lane) (x : Half) (b : Bool) (h : Keeps a s) : Keeps a (setGapMark l x b s) :=
  h.updCsw _

@[simp] theorem signalOwner_keeps (o : Option Owner) (d : Dest) (p : Option Prompt) (w : SignalReason)
    (h : Keeps a s) : Keeps a (signalOwner o d p w s) := by
  unfold signalOwner; split <;> [exact h.emit _; exact h]

@[simp] theorem startPrompt_keeps (p : PlayerId) (o : Owner) (q : Prompt) (r : BitVec 4) (g : Time) (h : Keeps a s) :
    Keeps a (startPrompt p o q r g s) := h.updCsw _

@[simp] theorem requestPrompt_keeps (p : PlayerId) (o : Owner) (q : Prompt) (r : BitVec 4) (g : Time) (h : Keeps a s) :
    Keeps a (requestPrompt p o q r g s) := by
  unfold requestPrompt; split
  · exact h.emit _
  · exact startPrompt_keeps _ _ _ _ _ (signalOwner_keeps _ _ _ _ h)
  · exact startPrompt_keeps _ _ _ _ _ h

@[simp] theorem idlePlayer_keeps (p : PlayerId) (h : Keeps a s) : Keeps a (idlePlayer p s) := h.updCsw _

@[simp] theorem setOverlay_keeps (d : Dest) (o : Option Overlay) (h : Keeps a s) : Keeps a (setOverlay d o s) := h.updCsw _

@[simp] theorem endPrompt_keeps (p : PlayerId) (w : SignalReason) (h : Keeps a s) : Keeps a (endPrompt p w s) :=
  signalOwner_keeps _ _ _ _ (setOverlay_keeps _ _ (idlePlayer_keeps p h))

@[simp] theorem stopPrompt_keeps (p : PlayerId) (w : Option Prompt) (h : Keeps a s) : Keeps a (stopPrompt p w s) :=
  Keeps.ite' (endPrompt_keeps _ _ h) h

@[simp] theorem playEnds_keeps (p : PlayerId) (h : Keeps a s) : Keeps a (playEnds p s) := by
  unfold playEnds; dsimp only
  refine Keeps.ite' ?_ h
  refine Keeps.ite' (endPrompt_keeps _ _ ?_) (Keeps.updCsw ?_ _) <;> exact (h.withTick _).updCsw _

@[simp] theorem playGapEnds_keeps (p : PlayerId) (h : Keeps a s) : Keeps a (playGapEnds p s) :=
  Keeps.ite' (h.updCsw _) h

@[simp] theorem requestHoldLine_keeps (m : Mod) (h : Keeps a s) : Keeps a (requestHoldLine m s) :=
  requestPrompt_keeps _ _ _ _ _ h

@[simp] theorem holdLineAgain_keeps (m : Mod) (h : Keeps a s) : Keeps a (holdLineAgain m s) :=
  Keeps.ite' (requestHoldLine_keeps m h) h

@[simp] theorem burstTakesOver_keeps (m : Mod) (h : Keeps a s) : Keeps a (burstTakesOver m s) := by
  have k : ∀ {t : State} (o : Option Owner) (p : Option Prompt) (i : PlayerId), Keeps a t →
      Keeps a (signalOwner o (.modTx m) p .preempted (setOverlay (.modTx m) (some .ident) (idlePlayer i t))) :=
    fun o p i q => signalOwner_keeps _ _ _ _ (setOverlay_keeps _ _ (idlePlayer_keeps i q))
  unfold burstTakesOver; dsimp only
  refine Keeps.ite' (Keeps.ite' (holdLineAgain_keeps m (k _ _ _ h)) (k _ _ _ h)) (setOverlay_keeps _ _ h)

@[simp] theorem startBurst_keeps (r : BurstRequest) (h : Keeps a s) : Keeps a (startBurst r s) :=
  burstTakesOver_keeps _ (h.updCsw _)

@[simp] theorem requestBurst_keeps (r : BurstRequest) (h : Keeps a s) : Keeps a (requestBurst r s) := by
  unfold requestBurst; dsimp only
  split
  · exact startBurst_keeps r h
  · exact h.updCsw _
  · exact Keeps.ite' (h.updCsw _) (Keeps.ite' ((h.updCsw _).emit _) (h.emit _))

@[simp] theorem burstEnds_keeps (r : BurstRequest) (h : Keeps a s) : Keeps a (burstEnds r s) := by
  unfold burstEnds; dsimp only
  have k := setOverlay_keeps (.modTx r.dest) none h
  have k2 : Keeps a (if ((setOverlay (.modTx r.dest) none s).car r.dest).isSome = true then
      holdLineAgain r.dest
        ((setOverlay (.modTx r.dest) none s).emit (.signal (.carriage r.dest) (.modTx r.dest) .burst .completed))
      else setOverlay (.modTx r.dest) none s) := Keeps.ite' (holdLineAgain_keeps _ (k.emit _)) k
  split
  · exact startBurst_keeps _ (k2.updCsw _)
  · exact k2.updCsw _

@[simp] theorem toneEnds_keeps (h : Keeps a s) : Keeps a (toneEnds s) := Keeps.ite' (h.updCsw _) h

@[simp] theorem toneGapEnds_keeps (h : Keeps a s) : Keeps a (toneGapEnds s) := by
  unfold toneGapEnds; dsimp only
  split
  · exact h
  · exact Keeps.ite' (Keeps.ite' (h.updCsw _) (burstEnds_keeps _ h)) h

/-! ## The panel -/

@[simp] theorem formWanted_keeps (h : Keeps a s) : Keeps a (formWanted s) := h.withLamp _

@[simp] theorem requestLamp_keeps (p : LampPattern) (h : Keeps a s) : Keeps a (requestLamp p s) :=
  formWanted_keeps (h.withLamp _)

@[simp] theorem restartLamp_keeps (h : Keeps a s) : Keeps a (restartLamp s) := h.withLamp _

@[simp] theorem lampTurnsOff_keeps (h : Keeps a s) : Keeps a (lampTurnsOff s) := by
  unfold lampTurnsOff; split
  · exact Keeps.ite' (h.withLamp _) h
  · exact h

@[simp] theorem sampleSupply_keeps (mv : Nat) (h : Keeps a s) : Keeps a (sampleSupply mv s) := h.withSupply _

end Sys2Proof.Machine
end

