-- ==== Sys2Proof/Laws/Lanes.lean ====
section
/-! SUPPORT. What the operations of the Lane Controller and of the probe engines keep. -/

namespace Sys2Proof.Machine

variable {a s : State}

/-! ## The clock compare stays in range (R136) -/

theorem compareUp_ok {c : Int} (h : -127 ≤ c ∧ c ≤ 127) : -127 ≤ compareUp c ∧ compareUp c ≤ 127 := by
  unfold compareUp; split <;> omega

theorem compareDown_ok {c : Int} (h : -127 ≤ c ∧ c ≤ 127) : -127 ≤ compareDown c ∧ compareDown c ≤ 127 := by
  unfold compareDown; split <;> omega

theorem compareEdge_ok {c : Int} (e : ClockEdge) (h : -127 ≤ c ∧ c ≤ 127) :
    -127 ≤ compareEdge c e ∧ compareEdge c e ≤ 127 := by
  cases e
  · exact compareUp_ok h
  · exact compareDown_ok h

theorem clockCompare_ok {c : Int} (edges : List ClockEdge) (h : -127 ≤ c ∧ c ≤ 127) :
    -127 ≤ clockCompare c edges ∧ clockCompare c edges ≤ 127 := by
  unfold clockCompare
  induction edges generalizing c with
  | nil => exact h
  | cons e es ih => exact ih (compareEdge_ok e h)

@[simp] theorem Engine.settle_compareOk (x : Engine) (b : Bool) (t : Time) : (x.settle b t).compareOk := by
  unfold Engine.settle Engine.compareOk; simp

theorem Engine.compareOk_congr {x y : Engine} (h : y.compare = x.compare) (k : x.compareOk) : y.compareOk := by
  unfold Engine.compareOk at *; rw [h]; exact k

@[simp] theorem Engine.finish_compare (x : Engine) : x.finish.compare = x.compare := by
  unfold Engine.finish; split <;> rfl

@[simp] theorem Engine.carrierOn_compare (x : Engine) (t : Time) : (x.carrierOn t).compare = x.compare := by
  unfold Engine.carrierOn; split <;> rfl

@[simp] theorem Engine.carrierOff_compare (x : Engine) (t : Time) : (x.carrierOff t).compare = x.compare := by
  unfold Engine.carrierOff; split <;> rfl

theorem Engine.steadyWord_compareOk {x : Engine} (w : BitVec 32) (e : Nat) (h : x.compareOk) :
    (x.steadyWord w e).1.compareOk := by
  unfold Engine.steadyWord; dsimp only
  split
  · exact h
  · split
    · split
      · exact h
      · unfold Engine.compareOk; simp
    · split <;> exact h

theorem Engine.clocked_compareOk {x : Engine} (es : List ClockEdge) (h : x.compareOk) : (x.clocked es).compareOk := by
  unfold Engine.clocked
  split
  · exact clockCompare_ok _ h
  · exact h

/-- Outside CHECK bit clocks change nothing (R136). -/
theorem Engine.clocked_of_not_check {x : Engine} (es : List ClockEdge) (h : x.checker ≠ .check) : x.clocked es = x :=
  if_neg h

@[simp] theorem Engine.clocked_nil (x : Engine) : x.clocked [] = x := by unfold Engine.clocked; split <;> rfl

/-- Bit clocks that come in two parts act as one run of them (R136). -/
theorem Engine.clocked_append (x : Engine) (es fs : List ClockEdge) : x.clocked (es ++ fs) = (x.clocked es).clocked fs := by
  unfold Engine.clocked clockCompare
  split
  · simp [List.foldl_append]
  · rfl

theorem Engine.checkWord_compareOk {x : Engine} (w : BitVec 32) (e g : Nat) (h : x.compareOk) :
    (x.checkWord w e g).1.compareOk := by
  unfold Engine.checkWord; dsimp only
  split
  · exact h
  · split <;> exact h

theorem Engine.word_compareOk {x : Engine} (i : WordIn) (g : Nat) (t : Time) (h : x.compareOk) :
    (x.word i g t).1.compareOk := by
  unfold Engine.word
  split
  · split <;> exact h
  · dsimp only
    split
    · exact Engine.steadyWord_compareOk _ _ h
    · exact Engine.steadyWord_compareOk _ _ h
    · exact Engine.checkWord_compareOk _ _ _ h
    · exact h
    · exact h
    · exact h

/-! ## Lanes -/

@[simp] theorem LaneEntry.setHeard_occupancy (x : LaneEntry) (h : Half) (b : Bool) :
    (x.setHeard h b).occupancy = x.occupancy := by cases h <;> rfl
@[simp] theorem LaneEntry.setHeard_owner (x : LaneEntry) (h : Half) (b : Bool) : (x.setHeard h b).owner = x.owner := by
  cases h <;> rfl

theorem LaneEntry.ownedOk_congr {n : Station} {x y : LaneEntry} (h1 : y.occupancy = x.occupancy) (h2 : y.owner = x.owner)
    (h : x.ownedOk n) : y.ownedOk n := by unfold LaneEntry.ownedOk at *; rw [h1, h2]; exact h

@[simp] theorem noticeIfFree_keeps (l : Lane) (h : Keeps a s) : Keeps a (noticeIfFree l s) := Keeps.ite' (h.notify _) h

theorem takeLane_keeps (l : Lane) (o : Owner) (z : s.own ≠ 0) (h : Keeps a s) : Keeps a (takeLane l o s) := by
  unfold takeLane
  refine h.updLane _ _ fun _ => ?_
  unfold LaneEntry.ownedOk; dsimp only
  split <;> simp [z]

@[simp] theorem quarantineLane_keeps (l : Lane) (h : Keeps a s) : Keeps a (quarantineLane l s) := by
  unfold quarantineLane
  refine h.updLane _ _ fun k => ?_
  dsimp only
  split
  · split <;> exact k
  · exact k

@[simp] theorem endQuarantine_keeps (l : Lane) (h : Keeps a s) : Keeps a (endQuarantine l s) :=
  Keeps.ite' (noticeIfFree_keeps _ (h.updLane _ _ fun k => k)) h

@[simp] theorem laneTurnsFree_keeps (l : Lane) (h : Keeps a s) : Keeps a (laneTurnsFree l s) :=
  Keeps.ite' (noticeIfFree_keeps _ (h.updLane _ _ fun _ => by unfold LaneEntry.ownedOk; simp)) h

@[simp] theorem superviseLane_keeps (l : Lane) (h : Keeps a s) : Keeps a (superviseLane l s) := by
  unfold superviseLane; split
  · exact h
  · exact Keeps.ite' (h.updLane _ _ fun k => k) (setGapMark_keeps _ _ _ (h.updLane _ _ fun k => k))

@[simp] theorem endSupervision_keeps (l : Lane) (h : Keeps a s) : Keeps a (endSupervision l s) := by
  unfold endSupervision; dsimp only
  refine Keeps.ite' ?_ h
  split
  · exact setGapMark_keeps _ _ _ (h.updLane _ _ fun k => k)
  · exact h.updLane _ _ fun k => k

@[simp] theorem startEngine_keeps (u : Owner) (l : Lane) (n : BitVec 15) (g c : Bool) (h : Keeps a s) :
    Keeps a (startEngine u l n g c s) := by
  unfold startEngine; dsimp only
  refine h.updEngine _ _ fun _ => ?_
  split
  · exact Engine.settle_compareOk _ _ _
  · unfold Engine.compareOk Engine.idle; simp

@[simp] theorem stopEngine_keeps (e : EngineId) (h : Keeps a s) : Keeps a (stopEngine e s) :=
  h.updEngine _ _ fun k => k

@[simp] theorem restartChecker_keeps (m : Mod) (l : Lane) (h : Keeps a s) : Keeps a (restartChecker m l s) :=
  by unfold restartChecker; exact h.updEngine _ _ fun _ => Engine.settle_compareOk _ _ _

@[simp] theorem endSupervision_occupancy (l : Lane) (s : State) :
    ((endSupervision l s).lanes.get l).occupancy = (s.lanes.get l).occupancy := by
  unfold endSupervision; dsimp only
  split
  · split
    · unfold setGapMark; split <;> simp
    · simp
  · rfl

@[simp] theorem releaseLane_keeps (l : Lane) (o : Owner) (h : Keeps a s) : Keeps a (releaseLane l o s) := by
  have k : Keeps a (if ((endSupervision l s).engine (engineOf o)).lane = some l then
      stopEngine (engineOf o) (endSupervision l s) else endSupervision l s) :=
    Keeps.ite' (stopEngine_keeps _ (endSupervision_keeps _ h)) (endSupervision_keeps _ h)
  unfold releaseLane; dsimp only
  refine Keeps.ite' ?_ h
  by_cases e : (s.lane l).occupancy = .own
  · rw [if_pos e]
    exact k.updLane _ _ fun _ => by unfold LaneEntry.ownedOk; simp
  · rw [if_neg e]
    refine noticeIfFree_keeps _ (k.updLane _ _ fun _ => ?_)
    unfold LaneEntry.ownedOk
    intro c
    refine absurd ?_ e
    rw [← c]
    split <;> simp [stopEngine]

theorem restartLane_ok {n : Station} {x : LaneEntry} (t : Time) (h : x.ownedOk n) : (restartLane x t).ownedOk n := by
  unfold restartLane LaneEntry.ownedOk at *
  dsimp only
  split
  · simp
  · exact h

@[simp] theorem restartLanes_keeps (h : Keeps a s) : Keeps a (restartLanes s) :=
  h.trans ⟨rfl, rfl, rfl, rfl, id, fun q => ⟨q.queue, q.claims, q.avoid, q.offers, q.nets,
    fun e => by cases e <;> [exact q.compare .e0; exact q.compare .e1; exact q.compare .e2],
    fun l => by
      cases l <;>
        [exact restartLane_ok _ (q.owned .l1); exact restartLane_ok _ (q.owned .l2); exact restartLane_ok _ (q.owned .l3);
         exact restartLane_ok _ (q.owned .l4); exact restartLane_ok _ (q.owned .l5); exact restartLane_ok _ (q.owned .l6)]⟩⟩

/-- R123, R129: what a lane choice can give. -/
theorem chooseLane_some {mask : LaneMask} {l : Lane} (h : chooseLane mask s = some l) :
    s.own ≠ 0 ∧ inMask mask l = true ∧ (s.lane l).freeForChoosing = true := by
  unfold chooseLane at h
  split at h
  · cases h
  · rename_i z
    have := List.find?_some h
    simp at this
    exact ⟨z, this⟩

/-- R125, R129: what a lane the origin record may take is. -/
theorem originMayTake_own {l : Lane} (h : originMayTake l s = true) : s.own ≠ 0 := by
  unfold originMayTake at h; simp at h; exact h.1.1.1

/-! ## Carrier -/

@[simp] theorem reportDropout_keeps (o : Owner) (h : Keeps a s) : Keeps a (reportDropout o s) := by
  cases o
  · exact h.updCocAvoid (fun c => { c with dropouts := satInc c.dropouts }) fun _ => rfl
  · exact h.updCar _ _
  · exact h

@[simp] theorem countTestGap_keeps (l : Lane) (x : Half) (h : Keeps a s) : Keeps a (countTestGap l x s) :=
  Keeps.ite' (h.withSvc _) h

@[simp] theorem endGap_keeps (l : Lane) (x : Half) (h : Keeps a s) : Keeps a (endGap l x s) := by
  unfold endGap; dsimp only; split
  · exact Keeps.ite' (reportDropout_keeps _ (setGapMark_keeps _ _ _ (h.updLane _ _ fun k => k))) h
  · exact h

@[simp] theorem beginGap_keeps (l : Lane) (x : Half) (h : Keeps a s) : Keeps a (beginGap l x s) := by
  unfold beginGap; dsimp only; split
  · exact Keeps.ite' (setGapMark_keeps _ _ _ (h.updLane _ _ fun k => k)) h
  · exact h

theorem PerEngine.map_ok {p : PerEngine Engine} {f : Engine → Engine} (hf : ∀ x, (f x).compare = x.compare)
    (h : ∀ e, (p.get e).compareOk) (e : EngineId) : ((p.map f).get e).compareOk := by
  have : (p.map f).get e = f (p.get e) := by cases e <;> rfl
  rw [this]; exact Engine.compareOk_congr (hf _) (h e)

@[simp] theorem carrierRises_keeps (l : Lane) (x : Half) (h : Keeps a s) : Keeps a (carrierRises l x s) := by
  unfold carrierRises; dsimp only
  refine Keeps.ite' (Keeps.withEngines (countTestGap_keeps _ _ (endGap_keeps _ _ (h.updLane _ _ fun k => ?_))) ?_) h
  · unfold LaneEntry.ownedOk at *; simp only [LaneEntry.setHeard_owner]
    split <;> [simp; exact k]
  · exact PerEngine.map_ok fun y => by split <;> simp

@[simp] theorem carrierFalls_keeps (l : Lane) (x : Half) (h : Keeps a s) : Keeps a (carrierFalls l x s) := by
  unfold carrierFalls; dsimp only
  refine Keeps.ite' (Keeps.withEngines (beginGap_keeps _ _ (h.updLane _ _ fun k => ?_)) ?_) h
  · split <;> exact LaneEntry.ownedOk_congr (by simp) (by simp) k
  · exact PerEngine.map_ok fun y => by split <;> simp

/-! ## Checkers -/

/-- R132: SEEK takes any word unless SETTLE ended less than a word time ago (log 52). -/
theorem Engine.takesWord_iff (x : Engine) (now : Time) :
    x.takesWord now = true ↔ ∀ c, x.seekFrom = some c → c + wordTime ≤ now := by
  unfold Engine.takesWord; cases x.seekFrom <;> simp

/-- R132: a word that SEEK does not take changes nothing. -/
theorem Engine.word_passed_over {x : Engine} (i : WordIn) (g : Nat) {t c : Time} (k : x.checker = .seek)
    (n : x.seekLoaded = false) (h : x.seekFrom = some c) (e : t < c + wordTime) : x.word i g t = (x, none) := by
  have p : x.takesWord t = false := by simp [Engine.takesWord, h, e]
  unfold Engine.word
  rw [if_pos ⟨k, n⟩, p]; rfl

@[simp] theorem settleEnds_keeps (e : EngineId) (h : Keeps a s) : Keeps a (settleEnds e s) :=
  Keeps.ite' (h.updEngine _ _ fun k => k) h

@[simp] theorem checkerGapResets_keeps (e : EngineId) (h : Keeps a s) : Keeps a (checkerGapResets e s) :=
  Keeps.ite' (h.updEngine _ _ fun _ => Engine.settle_compareOk _ _ _) h

@[simp] theorem generatorEnds_keeps (e : EngineId) (h : Keeps a s) : Keeps a (generatorEnds e s) :=
  Keeps.ite' (h.updEngine _ _ fun k => Engine.compareOk_congr (by simp) k) h

end Sys2Proof.Machine
end

