-- ==== Sys2Proof/Laws/Modules.lean ====
section
/-! SUPPORT. The network tables keep their order, their bound and one entry for a code; what the module operations keep. -/

namespace Sys2Proof.Machine

/-! ## The network table (6.5) -/

theorem netBefore_iff (x y : Net) :
    netBefore x y = true ↔ y.quality < x.quality ∨ (x.quality = y.quality ∧ @LT.lt Nat _ x.code y.code) := by
  unfold netBefore; simp

theorem netBefore_trans {x y z : Net} (h : netBefore x y = true) (k : netBefore y z = true) : netBefore x z = true := by
  rw [netBefore_iff] at *; omega

theorem netBefore_of_not {x y : Net} (h : ¬netBefore x y = true) (k : x.code ≠ y.code) : netBefore y x = true := by
  rw [netBefore_iff] at *
  have k : ¬@Eq Nat x.code y.code := k
  omega

theorem insertNet_perm (x : Net) (t : List Net) : (insertNet x t).Perm (x :: t) := by
  induction t with
  | nil => exact List.Perm.refl _
  | cons y ys ih =>
    unfold insertNet
    split
    · exact List.Perm.refl _
    · exact (ih.cons y).trans (List.Perm.swap _ _ _)

theorem sortNets_perm (t : List Net) : (sortNets t).Perm t := by
  induction t with
  | nil => exact List.Perm.refl _
  | cons x xs ih => exact (insertNet_perm x _).trans (ih.cons x)

theorem insertNet_sorted {x : Net} {t : List Net} (h : t.Pairwise fun x y => netBefore x y = true)
    (k : ∀ y ∈ t, x.code ≠ y.code) : (insertNet x t).Pairwise fun x y => netBefore x y = true := by
  induction t with
  | nil => simp [insertNet]
  | cons y ys ih =>
    rw [List.pairwise_cons] at h
    unfold insertNet
    split
    · rename_i b
      refine List.pairwise_cons.2 ⟨fun z hz => ?_, List.pairwise_cons.2 h⟩
      rcases List.mem_cons.1 hz with rfl | hz
      · exact b
      · exact netBefore_trans b (h.1 z hz)
    · rename_i b
      refine List.pairwise_cons.2 ⟨fun z hz => ?_, ih h.2 fun z hz => k z (List.mem_cons_of_mem _ hz)⟩
      rcases List.mem_cons.1 ((insertNet_perm x ys).mem_iff.1 hz) with rfl | hz
      · exact netBefore_of_not b (k y List.mem_cons_self)
      · exact h.1 z hz

theorem sortNets_sorted {t : List Net} (h : (t.map Net.code).Nodup) :
    (sortNets t).Pairwise fun x y => netBefore x y = true := by
  induction t with
  | nil => simp [sortNets]
  | cons x xs ih =>
    rw [List.map_cons, List.nodup_cons] at h
    refine insertNet_sorted (ih h.2) fun y hy e => h.1 ?_
    rw [e]
    exact List.mem_map_of_mem ((sortNets_perm xs).mem_iff.1 hy)

theorem sortNets_codes {t : List Net} (h : (t.map Net.code).Nodup) : ((sortNets t).map Net.code).Nodup :=
  ((sortNets_perm t).map _).nodup_iff.2 h

theorem netOf_none {t : List Net} {c : Code} (h : netOf t c = none) : c ∉ t.map Net.code := by
  unfold netOf at h
  rw [List.find?_eq_none] at h
  intro k
  obtain ⟨n, hn, e⟩ := List.mem_map.1 k
  exact h n hn (by simp [e])

theorem mergeNet_codes {t : List Net} (x : Net) (h : (t.map Net.code).Nodup) : ((mergeNet t x).map Net.code).Nodup := by
  unfold mergeNet
  split
  · rename_i e
    rw [List.map_append]
    refine List.Nodup.append h (by simp) ?_
    simpa using netOf_none e
  · rw [List.map_map]
    convert h using 2
    funext y
    simp only [Function.comp]
    split
    · rename_i e; split <;> [exact e.symm; (split <;> rfl)]
    · rfl

theorem foldl_mergeNet_codes (l t : List Net) (h : (t.map Net.code).Nodup) :
    ((l.foldl mergeNet t).map Net.code).Nodup := by
  induction l generalizing t with
  | nil => exact h
  | cons x xs ih => exact ih _ (mergeNet_codes x h)

/-- A table whose entries keep their codes and qualities stays in order. -/
theorem netTableOk_map {t : List Net} {f : Net → Net} (hf : ∀ n, (f n).code = n.code ∧ (f n).quality = n.quality)
    (h : netTableOk t) : netTableOk (t.map f) := by
  obtain ⟨h1, h2, h3⟩ := h
  refine ⟨by simpa using h1, List.pairwise_map.2 (h2.imp fun {x y} k => ?_), ?_⟩
  · rw [netBefore_iff] at *; rw [(hf x).1, (hf x).2, (hf y).1, (hf y).2]; exact k
  · rw [List.map_map]; convert h3 using 2; funext n; exact (hf n).1

theorem netTableOk_nil : netTableOk [] := ⟨by simp, by simp, by simp⟩

theorem scanTable_ok (entries : List ScanEntry) (old : List Net) : netTableOk (scanTable entries old) := by
  have c := foldl_mergeNet_codes (scannedNets entries) [] (by simp)
  unfold scanTable
  refine netTableOk_map (fun n => ⟨rfl, rfl⟩) ⟨?_, ?_, ?_⟩
  · simp
  · exact (sortNets_sorted c).sublist (List.take_sublist _ _)
  · exact (sortNets_codes c).sublist ((List.take_sublist _ _).map _)

theorem penaliseNet_ok {t : List Net} (c : Code) (u : Time) (h : netTableOk t) : netTableOk (penaliseNet t c u) :=
  netTableOk_map (fun n => by split <;> exact ⟨rfl, rfl⟩) h

theorem setQuality_ok {t : List Net} (c : Code) (q : Nat) (h : netTableOk t) : netTableOk (setQuality t c q) := by
  have e : (t.map fun n => if n.code = c then { n with quality := q } else n).map Net.code = t.map Net.code := by
    rw [List.map_map]; congr 1; funext n; simp only [Function.comp]; split <;> rfl
  have k := h.2.2
  rw [← e] at k
  refine ⟨?_, sortNets_sorted k, sortNets_codes k⟩
  rw [setQuality, (sortNets_perm _).length_eq]; simpa using h.1

/-! ## Orders and settling -/

variable {a s : State}

@[simp] theorem sendOrder_keeps (m : Mod) (k : OrderKind) (c : Code) (h : Keeps a s) : Keeps a (sendOrder m k c s) :=
  (h.updModTable m (fun r => { r with inFlight := some { kind := k, deadline := s.now + orderTime k, code := c } })
    fun _ => rfl).emit _

@[simp] theorem startScan_keeps (m : Mod) (st : ModuleState) (h : Keeps a s) : Keeps a (startScan m st s) :=
  sendOrder_keeps _ _ _ (h.updModTable _ _ fun _ => rfl)

@[simp] theorem startSelect_keeps (m : Mod) (c : Code) (h : Keeps a s) : Keeps a (startSelect m c s) :=
  sendOrder_keeps _ _ _ (h.updModTable _ _ fun _ => rfl)

@[simp] theorem startDial_keeps (m : Mod) (h : Keeps a s) : Keeps a (startDial m s) :=
  sendOrder_keeps _ _ _ (h.updModTable _ _ fun _ => rfl)

@[simp] theorem orderHangup_keeps (m : Mod) (h : Keeps a s) : Keeps a (orderHangup m s) :=
  sendOrder_keeps _ _ _ (h.updModTable _ _ fun _ => rfl)

@[simp] theorem orderAbort_keeps (m : Mod) (h : Keeps a s) : Keeps a (orderAbort m s) := sendOrder_keeps _ _ _ h

@[simp] theorem landOrder_keeps (m : Mod) (h : Keeps a s) : Keeps a (landOrder m s) := h.updModTable _ _ fun _ => rfl

@[simp] theorem refreshCheck_keeps (m : Mod) (h : Keeps a s) : Keeps a (refreshCheck m s) :=
  Keeps.ite' (startScan_keeps _ _ h) h

@[simp] theorem enterReady_keeps (m : Mod) (h : Keeps a s) : Keeps a (enterReady m s) :=
  Keeps.ite' h (refreshCheck_keeps m (h.updModTable _ _ fun _ => rfl))

@[simp] theorem enterNoService_keeps (m : Mod) (h : Keeps a s) : Keeps a (enterNoService m s) := by
  unfold enterNoService; exact h.updModTable _ _ fun r => by split <;> rfl

@[simp] theorem settle_keeps (m : Mod) (h : Keeps a s) : Keeps a (settle m s) := by
  unfold settle; dsimp only
  refine Keeps.ite' ?_ h
  split
  · exact enterReady_keeps m h
  · exact startSelect_keeps m _ h
  · exact enterNoService_keeps m h

@[simp] theorem penalise_keeps (m : Mod) (c : Code) (h : Keeps a s) : Keeps a (penalise m c s) :=
  settle_keeps m (h.updMod fun _ k => penaliseNet_ok _ _ k)

@[simp] theorem penaltyOver_keeps (m : Mod) (c : Code) (h : Keeps a s) : Keeps a (penaltyOver m c s) := by
  unfold penaltyOver; dsimp only
  refine Keeps.ite' (settle_keeps m (h.updMod fun _ k => netTableOk_map (fun n => ?_) k)) h
  split <;> exact ⟨rfl, rfl⟩

@[simp] theorem commitModule_keeps (m : Mod) (h : Keeps a s) : Keeps a (commitModule m s) :=
  Keeps.ite' (orderAbort_keeps m (h.updModTable _ _ fun _ => rfl)) (h.updModTable _ _ fun _ => rfl)

@[simp] theorem clearLink_keeps (m : Mod) (h : Keeps a s) : Keeps a (clearLink m s) :=
  settle_keeps m (h.updModTable _ _ fun _ => rfl)

@[simp] theorem endModuleCall_keeps (m : Mod) (h : Keeps a s) : Keeps a (endModuleCall m s) :=
  Keeps.ite' (orderHangup_keeps m h) h

@[simp] theorem switchOff_keeps (m : Mod) (h : Keeps a s) : Keeps a (switchOff m s) :=
  (h.updMod fun _ _ => netTableOk_nil).count _

@[simp] theorem switchOn_keeps (m : Mod) (h : Keeps a s) : Keeps a (switchOn m s) :=
  Keeps.ite' (h.updModTable _ _ fun _ => rfl) h

@[simp] theorem reportTaken_keeps (m : Mod) (h : Keeps a s) : Keeps a (reportTaken m s) :=
  h.updModTable _ _ fun _ => rfl

@[simp] theorem noteModule_keeps (m : Mod) (s0 : State) (h : Keeps a s) : Keeps a (noteModule m s0 s) :=
  Keeps.ite' (h.notify _) h

@[simp] theorem noteFreed_keeps (s0 : State) (h : Keeps a s) : Keeps a (noteFreed s0 s) := by
  unfold noteFreed
  have k := noteModule_keeps .a s0 h
  exact noteModule_keeps .b s0 k

/-! ## Lane tests -/

@[simp] theorem closeTest_keeps (t : LaneTest) (r : TestResult) (h : Keeps a s) : Keeps a (closeTest t r s) :=
  (stopEngine_keeps .e0 (releaseLane_keeps t.lane .laneTest h)).withSvc _

@[simp] theorem endTest_keeps (r : TestResult) (h : Keeps a s) : Keeps a (endTest r s) := by
  unfold endTest; split
  · exact h
  · exact handOver_keeps _ (closeTest_keeps _ _ h)

end Sys2Proof.Machine
end

