-- ==== Sys2Proof/Laws/Carriages.lean ====
section
/-! SUPPORT. What the operations of the Carriage Controller keep. -/

namespace Sys2Proof.Machine

variable {a s : State}

/-! ## Routes, stages, reports -/

@[simp] theorem setOriginRoutes_keeps (h : Keeps a s) : Keeps a (setOriginRoutes s) := by
  unfold setOriginRoutes
  split
  · exact h
  · split
    · exact setRoute_keeps _ _ _ (setRoute_keeps _ _ _ h)
    · exact setRoute_keeps _ _ _ (setRoute_keeps _ _ _ h)
    · exact h

@[simp] theorem originStage_keeps (st : Stage) (c : Code) (h : Keeps a s) : Keeps a (originStage st c s) := by
  have k : Keeps a (s.updCoc fun x =>
      { x with stage := some st, network := some c, answered := x.answered || st == .answered }) :=
    h.updCocAvoid _ fun _ => rfl
  unfold originStage; dsimp only
  split <;> try assumption
  split
  · exact k
  · exact k
  · exact stopPrompt_keeps _ _ k
  · exact requestLamp_keeps _ (stopPrompt_keeps _ _ (k.updCocAvoid (fun x => { x with state := .connected }) fun _ => rfl))

@[simp] theorem localStage_keeps (st : Stage) (c : Code) (h : Keeps a s) : Keeps a (localStage st c s) :=
  Keeps.ite' (originStage_keeps _ _ h) h

@[simp] theorem localGranted_keeps (m : Mod) (h : Keeps a s) : Keeps a (localGranted m s) :=
  Keeps.ite' (setOriginRoutes_keeps (requestLamp_keeps _ (h.updCocAvoid _ fun _ => rfl))) h

@[simp] theorem stageReport_keeps (c : Carriage) (st : Stage) (n : Code) (h : Keeps a s) :
    Keeps a (stageReport c st n s) := by
  unfold stageReport; split
  · exact handOver_keeps _ h
  · exact localStage_keeps _ _ h

@[simp] theorem endReport_keeps (c : Carriage) (r : ReleaseReason) (h : Keeps a s) : Keeps a (endReport c r s) := by
  unfold endReport; split
  · exact handOver_keeps _ h
  · exact h.notify _

@[simp] theorem networkNamed_keeps (m : Mod) (c : Code) (h : Keeps a s) : Keeps a (networkNamed m c s) := by
  unfold networkNamed; split
  · exact h
  · exact stageReport_keeps _ _ _ (h.updCar _ _)

/-! ## Removal -/

@[simp] theorem releaseCarriageLane_keeps (m : Mod) (h : Keeps a s) : Keeps a (releaseCarriageLane m s) := by
  unfold releaseCarriageLane; split
  · exact h
  · split
    · exact (releaseLane_keeps _ _ h).updCar _ _
    · exact h

@[simp] theorem removeCarriage_keeps (m : Mod) (h : Keeps a s) : Keeps a (removeCarriage m s) :=
  (clearLink_keeps m (endModuleCall_keeps m (stopPrompt_keeps _ _ (clearRoutes_keeps _
    (releaseCarriageLane_keeps m (stopEngine_keeps _ h)))))).setCar _ _

@[simp] theorem endCarriage_keeps (m : Mod) (r : ReleaseReason) (h : Keeps a s) : Keeps a (endCarriage m r s) := by
  unfold endCarriage; split
  · exact h
  · exact removeCarriage_keeps m (endReport_keeps _ _ h)

/-! ## Attempts -/

@[simp] theorem dialNow_keeps (m : Mod) (l : List Code) (h : Keeps a s) : Keeps a (dialNow m l s) := by
  unfold dialNow; split
  · exact endCarriage_keeps m _ h
  · exact networkNamed_keeps m _ (startDial_keeps m h)
  · exact networkNamed_keeps m _ (startSelect_keeps m _ h)

@[simp] theorem startAttempt_keeps (m : Mod) (h : Keeps a s) : Keeps a (startAttempt m s) := by
  unfold startAttempt; split
  · exact h
  · exact Keeps.ite' (h.updModTable _ _ fun _ => rfl) (dialNow_keeps m _ h)

@[simp] theorem sendPending_keeps (m : Mod) (h : Keeps a s) : Keeps a (sendPending m s) := by
  have k := h.updModTable m (fun r => { r with pendingOrder := none }) fun _ => rfl
  unfold sendPending
  refine Keeps.ite' h ?_
  split
  · exact h
  · dsimp only
    split
    · exact startScan_keeps m _ k
    · exact startSelect_keeps m _ k
    · exact dialNow_keeps m _ k

@[simp] theorem attemptFailed_keeps (m : Mod) (p : Bool) (h : Keeps a s) : Keeps a (attemptFailed m p s) := by
  unfold attemptFailed; split
  · exact h
  · dsimp only
    have k : ∀ t : State, Keeps a t → Keeps a (t.updCar m fun c => { c with ringDeadline := none, ringHangup := false }) :=
      fun t q => q.updCar _ _
    refine Keeps.ite' (startAttempt_keeps m (Keeps.updCar (k _ ?_) _ _)) (endCarriage_keeps m _ (k _ ?_)) <;>
      (split <;> [exact penalise_keeps m _ h; exact h])

/-! ## Voice and reports -/

@[simp] theorem setCarriageRoutes_keeps (m : Mod) (h : Keeps a s) : Keeps a (setCarriageRoutes m s) := by
  unfold setCarriageRoutes; split
  · exact h
  · split
    · exact setRoute_keeps _ _ _ (setRoute_keeps _ _ _ h)
    · exact h

@[simp] theorem askBurst_keeps (m : Mod) (c : Carriage) (h : Keeps a s) : Keeps a (askBurst m c s) :=
  requestBurst_keeps _ h

@[simp] theorem carriageRings_keeps (m : Mod) (h : Keeps a s) : Keeps a (carriageRings m s) := by
  unfold carriageRings; split
  · exact h
  · exact Keeps.ite' (stageReport_keeps _ _ _ (h.updCar _ _)) h

@[simp] theorem carriageAnswers_keeps (m : Mod) (h : Keeps a s) : Keeps a (carriageAnswers m s) := by
  unfold carriageAnswers; split
  · exact h
  · refine Keeps.ite' (askBurst_keeps _ _ ?_) h
    split <;> [refine setRoute_keeps _ _ _ ?_; skip] <;> exact stageReport_keeps _ _ _ (h.updCar _ _)

@[simp] theorem carriageCallEnds_keeps (m : Mod) (e : CallEnd) (h : Keeps a s) : Keeps a (carriageCallEnds m e s) := by
  unfold carriageCallEnds; split
  · exact h
  · split
    · exact endCarriage_keeps m _ h
    · refine endCarriage_keeps m _ ?_
      split <;> [exact penalise_keeps m _ h; exact h]

@[simp] theorem carriageModuleFault_keeps (m : Mod) (h : Keeps a s) : Keeps a (carriageModuleFault m s) := by
  unfold carriageModuleFault; split
  · exact h
  · exact Keeps.ite' (removeCarriage_keeps m h) (endCarriage_keeps m _ h)

@[simp] theorem carriageHangupEnds_keeps (m : Mod) (h : Keeps a s) : Keeps a (carriageHangupEnds m s) := by
  unfold carriageHangupEnds; split
  · exact h
  · exact Keeps.ite' (removeCarriage_keeps m h) (Keeps.ite' (attemptFailed_keeps m _ h)
      (Keeps.ite' (carriageCallEnds_keeps m _ h) (attemptFailed_keeps m _ h)))

@[simp] theorem powerCycle_keeps (m : Mod) (h : Keeps a s) : Keeps a (powerCycle m s) :=
  Keeps.ite' (carriageModuleFault_keeps m (switchOff_keeps m h)) (switchOff_keeps m h)

/-! ## Grant and join -/

theorem grantLane_keeps (m : Mod) (l : Lane) (z : s.own ≠ 0) (h : Keeps a s) : Keeps a (grantLane m l s) := by
  unfold grantLane; split
  · exact h
  · exact handOver_keeps _ (startEngine_keeps _ _ _ _ _ ((takeLane_keeps _ _ z h).updCar _ _))

@[simp] theorem completeRejoin_keeps (m : Mod) (h : Keeps a s) : Keeps a (completeRejoin m s) := by
  unfold completeRejoin; split
  · exact h
  · refine Keeps.ite' (askBurst_keeps _ _ ?_) ?_ <;>
      exact handOver_keeps _ (Keeps.withTick (setCarriageRoutes_keeps m (stopPrompt_keeps _ _ (h.updCar _ _))) _)

@[simp] theorem superviseCarriage_keeps (m : Mod) (h : Keeps a s) : Keeps a (superviseCarriage m s) := by
  unfold superviseCarriage; split
  · exact h
  · split
    · exact superviseLane_keeps _ h
    · exact h

@[simp] theorem tryJoin_keeps (m : Mod) (h : Keeps a s) : Keeps a (tryJoin m s) := by
  unfold tryJoin; split
  · exact h
  · have k : Keeps a (superviseCarriage m (s.updCar m fun c => { c with connectDeadline := none })) :=
      superviseCarriage_keeps m (h.updCar _ _)
    exact Keeps.ite' (Keeps.ite' (completeRejoin_keeps m k) (startAttempt_keeps m (setCarriageRoutes_keeps m (k.updCar _ _)))) h

@[simp] theorem laneFails_keeps (m : Mod) (h : Keeps a s) : Keeps a (laneFails m s) := by
  unfold laneFails; split
  · exact h
  · rename_i c e
    have k : Keeps a (match c.lane with
        | some l => releaseLane l (.carriage m) (quarantineLane l (stopEngine (engineOf (.carriage m)) s))
        | none => stopEngine (engineOf (.carriage m)) s) := by
      split
      · exact releaseLane_keeps _ _ (quarantineLane_keeps _ (stopEngine_keeps _ h))
      · exact stopEngine_keeps _ h
    have k2 := k.updCar m fun c => { c with lane := none, connectDeadline := none }
    dsimp only
    split
    · rename_i q
      split at q
      · exact grantLane_keeps m _ (chooseLane_some q).1 (k2.updCar _ _)
      · cases q
    · exact Keeps.ite' ((handOver_keeps _ k2).updCar _ _) (removeCarriage_keeps m (handOver_keeps _ k2))

@[simp] theorem carriageProbeEnds_keeps (m : Mod) (o : ProbeOutcome) (h : Keeps a s) :
    Keeps a (carriageProbeEnds m o s) := by
  unfold carriageProbeEnds; split
  · exact h
  · exact Keeps.ite' (Keeps.ite' (tryJoin_keeps m (h.updCar _ _)) (laneFails_keeps m h)) h

@[simp] theorem carriageConnect_keeps (m : Mod) (l o : Nat) (h : Keeps a s) : Keeps a (carriageConnect m l o s) := by
  unfold carriageConnect; split
  · exact Keeps.ite' (Keeps.ite' (Keeps.ite' (tryJoin_keeps m (h.updCar _ _)) (laneFails_keeps m h)) h)
      (Keeps.ite' h (quarantineLane_keeps _ h))
  · exact h

@[simp] theorem carriageRetried_keeps (m : Mod) (k : LaneMask) (h : Keeps a s) : Keeps a (carriageRetried m k s) := by
  unfold carriageRetried; split
  · exact h
  · split
    · exact handOver_keeps _ (restartChecker_keeps m _ (h.updCar _ _))
    · exact h

@[simp] theorem carriageReleased_keeps (m : Mod) (h : Keeps a s) : Keeps a (carriageReleased m s) := by
  unfold carriageReleased; split
  · exact h
  · exact Keeps.ite' h (removeCarriage_keeps m h)

@[simp] theorem enterAwaitRejoin_keeps (m : Mod) (h : Keeps a s) : Keeps a (enterAwaitRejoin m s) := by
  unfold enterAwaitRejoin; split
  · exact h
  · split
    · exact h
    · exact requestHoldLine_keeps m ((releaseCarriageLane_keeps m (clearRoutes_keeps _ h)).updCar _ _)

@[simp] theorem carriageLaneLoss_keeps (m : Mod) (h : Keeps a s) : Keeps a (carriageLaneLoss m s) := by
  unfold carriageLaneLoss; split
  · exact h
  · exact Keeps.ite' (enterAwaitRejoin_keeps m h) h

@[simp] theorem grantRejoin_keeps (m : Mod) (k : LaneMask) (h : Keeps a s) : Keeps a (grantRejoin m k s) := by
  unfold grantRejoin; split
  · exact h
  · dsimp only; split
    · rename_i q; exact grantLane_keeps m _ (chooseLane_some q).1 ((h.updCar _ _).updCar _ _)
    · exact handOver_keeps _ (h.updCar _ _)

@[simp] theorem carriageRejoin_keeps (m : Mod) (k : LaneMask) (h : Keeps a s) : Keeps a (carriageRejoin m k s) := by
  unfold carriageRejoin; split
  · exact h
  · split
    · exact grantRejoin_keeps m k h
    · exact Keeps.ite' (carriageRetried_keeps m k h) (removeCarriage_keeps m (handOver_keeps _ h))
    · exact grantRejoin_keeps m k (enterAwaitRejoin_keeps m h)
    · exact grantRejoin_keeps m k (enterAwaitRejoin_keeps m h)
    · exact grantRejoin_keeps m k (enterAwaitRejoin_keeps m h)
    · exact handOver_keeps _ h

@[simp] theorem clearWaiting_keeps (m : Mod) (h : Keeps a s) : Keeps a (clearWaiting m s) :=
  have k := (stopPrompt_keeps _ _ (releaseCarriageLane_keeps m (stopEngine_keeps (engineOf (.carriage m)) h))).updCar _ _
  Keeps.ite' (Keeps.ite' k (endModuleCall_keeps m k)) (removeCarriage_keeps m h)

/-! ## Deadlines -/

@[simp] theorem connectExpires_keeps (m : Mod) (h : Keeps a s) : Keeps a (connectExpires m s) := by
  unfold connectExpires; split
  · exact h
  · exact Keeps.ite' (laneFails_keeps m h) h

@[simp] theorem ringExpires_keeps (m : Mod) (h : Keeps a s) : Keeps a (ringExpires m s) := by
  unfold ringExpires; split
  · exact h
  · refine Keeps.ite' (orderHangup_keeps m (Keeps.updCar ?_ _ _)) h
    split <;> [exact penalise_keeps m _ h; exact h]

@[simp] theorem rejoinExpires_keeps (m : Mod) (h : Keeps a s) : Keeps a (rejoinExpires m s) := by
  unfold rejoinExpires; split
  · exact h
  · exact Keeps.ite' (Keeps.ite' (clearWaiting_keeps m (handOver_keeps _ h)) (clearWaiting_keeps m h)) h

/-! ## Orders and reports of the module -/

@[simp] theorem selectFails_keeps (m : Mod) (c : Code) (h : Keeps a s) : Keeps a (selectFails m c s) := by
  have k := h.updModTable m (fun r => { r with selected := none }) fun _ => rfl
  exact Keeps.ite' (attemptFailed_keeps m _ k) (penalise_keeps m c k)

@[simp] theorem selectSucceeds_keeps (m : Mod) (c : Code) (h : Keeps a s) : Keeps a (selectSucceeds m c s) := by
  have k := h.updModTable m (fun r => { r with selected := some c }) fun _ => rfl
  exact Keeps.ite' (startDial_keeps m k) (settle_keeps m k)

@[simp] theorem selectEnds_keeps (m : Mod) (c : Code) (ok : Bool) (h : Keeps a s) : Keeps a (selectEnds m c ok s) := by
  unfold selectEnds; split
  · have k := landOrder_keeps m h
    exact Keeps.ite' (Keeps.ite' (selectSucceeds_keeps m _ k) (selectFails_keeps m _ k)) h
  · exact h

@[simp] theorem scanEnds_keeps (m : Mod) (e : List ScanEntry) (h : Keeps a s) : Keeps a (scanEnds m e s) :=
  settle_keeps m ((landOrder_keeps m h).updMod fun _ _ => scanTable_ok _ _)

@[simp] theorem abortEnds_keeps (m : Mod) (h : Keeps a s) : Keeps a (abortEnds m s) := by
  have k := landOrder_keeps m h
  exact Keeps.ite' (sendPending_keeps m k) (Keeps.ite' (k.updModTable _ _ fun _ => rfl) (settle_keeps m k))

@[simp] theorem attemptEnds_keeps (m : Mod) (h : Keeps a s) : Keeps a (attemptEnds m s) := by
  have k := h.updModTable m
    (fun r => { r with inFlight := none, progressDeadline := none, callInProgress := false }) fun _ => rfl
  exact Keeps.ite' (attemptFailed_keeps m _ k) (settle_keeps m k)

@[simp] theorem hangupEnds_keeps (m : Mod) (h : Keeps a s) : Keeps a (hangupEnds m s) := by
  have k := h.updModTable m (fun r => { r with inFlight := none, callInProgress := false }) fun _ => rfl
  exact Keeps.ite' (carriageHangupEnds_keeps m k) (settle_keeps m k)

@[simp] theorem callEnds_keeps (m : Mod) (e : CallEnd) (h : Keeps a s) : Keeps a (callEnds m e s) := by
  have k := h.updModTable m (fun r => { r with inFlight := none, callInProgress := false }) fun _ => rfl
  exact Keeps.ite' (carriageCallEnds_keeps m e k) (settle_keeps m k)

@[simp] theorem endedReport_keeps (m : Mod) (r : Octet) (h : Keeps a s) : Keeps a (endedReport m r s) := by
  unfold endedReport
  split <;> try assumption
  · exact Keeps.ite' (hangupEnds_keeps m h) h
  · exact attemptEnds_keeps m h
  · exact attemptEnds_keeps m h
  · exact callEnds_keeps m _ h

@[simp] theorem acceptedReport_keeps (m : Mod) (h : Keeps a s) : Keeps a (acceptedReport m s) :=
  Keeps.ite' (h.updModTable _ _ fun _ => rfl) h

@[simp] theorem rejectedReport_keeps (m : Mod) (h : Keeps a s) : Keeps a (rejectedReport m s) :=
  Keeps.ite' (attemptEnds_keeps m h) h

@[simp] theorem ringingReport_keeps (m : Mod) (h : Keeps a s) : Keeps a (ringingReport m s) :=
  Keeps.ite' (carriageRings_keeps m (h.updModTable _ _ fun _ => rfl)) h

@[simp] theorem answeredReport_keeps (m : Mod) (h : Keeps a s) : Keeps a (answeredReport m s) :=
  Keeps.ite' (carriageAnswers_keeps m (h.updModTable _ _ fun _ => rfl)) h

@[simp] theorem qualityReport_keeps (m : Mod) (q : Octet) (h : Keeps a s) : Keeps a (qualityReport m q s) := by
  unfold qualityReport; split
  · exact h
  · split
    · exact h
    · exact settle_keeps m (h.updMod fun _ k => setQuality_ok _ _ k)

@[simp] theorem readyReport_keeps (m : Mod) (h : Keeps a s) : Keeps a (readyReport m s) :=
  Keeps.ite' (startScan_keeps m _ (h.updModTable _ _ fun _ => rfl)) (powerCycle_keeps m h)

@[simp] theorem scanListReport_keeps (m : Mod) (e : List ScanEntry) (h : Keeps a s) : Keeps a (scanListReport m e s) :=
  Keeps.ite' (scanEnds_keeps m e h) (Keeps.ite' (abortEnds_keeps m h) h)

@[simp] theorem abortedReport_keeps (m : Mod) (h : Keeps a s) : Keeps a (abortedReport m s) :=
  Keeps.ite' (abortEnds_keeps m h) h

theorem onReport_keeps (m : Mod) {f : State → State} (hf : ∀ t, Keeps a t → Keeps a (f t)) (h : Keeps a s) :
    Keeps a (onReport m f s) := Keeps.ite' (hf _ (reportTaken_keeps m h)) h

theorem orderTimesOut_keeps (m : Mod) (k : OrderKind) {f : State → State} (hf : ∀ t, Keeps a t → Keeps a (f t))
    (h : Keeps a s) : Keeps a (orderTimesOut m k f s) := by
  have q := h.updModTable m (fun r => { r with timeouts := r.timeouts + 1 }) fun _ => rfl
  exact Keeps.ite' (Keeps.ite' (powerCycle_keeps m q) (hf _ q)) h

@[simp] theorem scanTimesOut_keeps (m : Mod) (h : Keeps a s) : Keeps a (scanTimesOut m s) :=
  sendPending_keeps m ((landOrder_keeps m h).updMod fun _ _ => netTableOk_nil)

@[simp] theorem selectTimesOut_keeps (m : Mod) (h : Keeps a s) : Keeps a (selectTimesOut m s) := by
  unfold selectTimesOut; split
  · exact selectFails_keeps m _ (landOrder_keeps m h)
  · exact h

@[simp] theorem rescanStarts_keeps (m : Mod) (h : Keeps a s) : Keeps a (rescanStarts m s) :=
  Keeps.ite' (startScan_keeps m _ h) h

@[simp] theorem progressExpires_keeps (m : Mod) (h : Keeps a s) : Keeps a (progressExpires m s) :=
  Keeps.ite' (orderHangup_keeps m h) h

@[simp] theorem poweringExpires_keeps (m : Mod) (h : Keeps a s) : Keeps a (poweringExpires m s) :=
  Keeps.ite' (powerCycle_keeps m h) h

@[simp] theorem takeReport_keeps (m : Mod) (r : Report) (h : Keeps a s) : Keeps a (takeReport m r s) := by
  cases r <;> simp [takeReport, h]

@[simp] theorem linkError_keeps (m : Mod) (h : Keeps a s) : Keeps a (linkError m s) :=
  Keeps.ite' (h.updModTable _ _ fun _ => rfl) h

@[simp] theorem takeLink_keeps (m : Mod) (e : LinkEvent) (h : Keeps a s) : Keeps a (takeLink m s e) := by
  cases e with
  | report r => exact onReport_keeps m (fun _ => takeReport_keeps m r) h
  | discarded => exact linkError_keeps m h

/-- R99: octets heard before the power last came on bring about nothing. -/
theorem linkStream_unread (m : Mod) (octets : List LinkOctet) (s : State)
    (h : ∀ o ∈ octets, o.heardAt < (s.mod m).poweredAt) : linkStream m octets s = s := by
  have e : (s.mod m).reads octets = [] :=
    List.filter_eq_nil_iff.2 fun o k => by have := h o k; simpa only [decide_eq_true_eq, Nat.not_le] using this
  unfold linkStream
  rw [e]
  rfl

@[simp] theorem linkStream_keeps (m : Mod) (octets : List LinkOctet) (h : Keeps a s) :
    Keeps a (linkStream m octets s) := by
  unfold linkStream
  generalize linkEvents .hunting 0 s.now ((s.mod m).reads octets) = l
  induction l generalizing s with
  | nil => exact h
  | cons e _ ih => exact ih (takeLink_keeps m e h)

end Sys2Proof.Machine
end

