-- ==== Sys2Proof/Laws/Arbiter.lean ====
section
/-! SUPPORT. What the operations of the Channel Arbiter keep: the claim queue stays within six entries. -/

namespace Sys2Proof.Machine

variable {a s : State}

@[simp] theorem tellPosition_keeps (h : Keeps a s) : Keeps a (tellPosition s) := by
  unfold tellPosition
  refine Keeps.ite' ?_ h
  split
  · exact h.updCocAvoid (fun c => { c with queuePos := some _ }) fun _ => rfl
  · exact h

@[simp] theorem keepClaims_keeps (k : ClaimEntry → Bool) (h : Keeps a s) : Keeps a (keepClaims k s) :=
  tellPosition_keeps (h.withClaims fun q => Nat.le_trans (List.length_filter_le _ _) q)

@[simp] theorem removeClaim_keeps (o : Station) (t : Tag) (h : Keeps a s) : Keeps a (removeClaim o t s) :=
  keepClaims_keeps _ h

theorem joinClaims_keeps (e : ClaimEntry) (k : s.claims.length < 6) (h : Keeps a s) : Keeps a (joinClaims e s) :=
  h.withClaims fun _ => by simp; omega

@[simp] theorem updClaim_keeps (o : Station) (t : Tag) (f : ClaimEntry → ClaimEntry) (h : Keeps a s) :
    Keeps a (updClaim o t f s) := h.withClaims fun q => by simpa using q

theorem commitModule_own (m : Mod) (s : State) : (commitModule m s).own = s.own := by
  unfold commitModule; dsimp only; split <;> rfl

theorem tellPosition_own (s : State) : (tellPosition s).own = s.own := by
  unfold tellPosition; split <;> [(split <;> rfl); rfl]

theorem grantRemote_keeps (m : Mod) (l : Lane) (o : Station) (t : Tag) (k : LaneMask) (z : s.own ≠ 0) (h : Keeps a s) :
    Keeps a (grantRemote m l o t k s) := by
  unfold grantRemote countGrant
  exact (grantLane_keeps m l (s := (commitModule m s).setCar m _) ((commitModule_own m s).trans_ne z) ((commitModule_keeps m h).setCar _ _)).count _

@[simp] theorem grantLocal_keeps (m : Mod) (t : Tag) (h : Keeps a s) : Keeps a (grantLocal m t s) :=
  startAttempt_keeps m (localGranted_keeps m (((commitModule_keeps m h).setCar _ _).count _))

@[simp] theorem serveQueue_keeps (n : Nat) (h : Keeps a s) : Keeps a (serveQueue n s) := by
  induction n generalizing s with
  | zero => exact h
  | succ n ih =>
    unfold serveQueue
    split
    · exact h
    · rename_i e rest q
      have k : Keeps a { s with claims := rest } := h.withClaims fun q2 => by rw [q] at q2; simp at q2; omega
      split
      · exact h
      · refine Keeps.ite' (ih (grantLocal_keeps _ _ (tellPosition_keeps k))) ?_
        dsimp only
        split
        · rename_i q
          exact ih (grantRemote_keeps _ _ _ _ _ ((tellPosition_own _).trans_ne (chooseLane_some q).1) (tellPosition_keeps k))
        · exact h

@[simp] theorem serve_keeps (h : Keeps a s) : Keeps a (serve s) := serveQueue_keeps _ h

@[simp] theorem serveOnLane_keeps (h : Keeps a s) : Keeps a (serveOnLane s) := by
  unfold serveOnLane; split
  · exact Keeps.ite' (serve_keeps h) h
  · exact h

@[simp] theorem endStale_keeps (o : Station) (t : Tag) (m : Mod) (h : Keeps a s) : Keeps a (endStale o t m s) :=
  Keeps.ite' (carriageReleased_keeps m h) h

@[simp] theorem clearStale_keeps (o : Station) (t : Tag) (h : Keeps a s) : Keeps a (clearStale o t s) :=
  have k := noteFreed_keeps s (endStale_keeps o t .b (endStale_keeps o t .a (keepClaims_keeps _ h)))
  Keeps.ite' (Keeps.ite' (serve_keeps k) k) h

@[simp] theorem placeClaim_keeps (o : Station) (t : Tag) (k : LaneMask) (h : Keeps a s) :
    Keeps a (placeClaim o t k s) := by
  unfold placeClaim; split
  · split
    · rename_i q; exact grantRemote_keeps _ _ _ _ _ (chooseLane_some q).1 h
    · exact handOver_keeps _ h
  · split
    · rename_i q; exact handOver_keeps _ (joinClaims_keeps _ q h)
    · exact handOver_keeps _ h

@[simp] theorem admitClaim_keeps (o : Station) (t : Tag) (k : LaneMask) (h : Keeps a s) :
    Keeps a (admitClaim o t k s) :=
  Keeps.ite' (handOver_keeps _ h) (Keeps.ite' (handOver_keeps _ h) (placeClaim_keeps _ _ _ h))

@[simp] theorem retryQueued_keeps (o : Station) (t : Tag) (k : LaneMask) (h : Keeps a s) :
    Keeps a (retryQueued o t k s) := handOver_keeps _ (updClaim_keeps _ _ _ h)

@[simp] theorem claimNew_keeps (o : Station) (t : Tag) (k : LaneMask) (h : Keeps a s) : Keeps a (claimNew o t k s) := by
  unfold claimNew; split
  · exact carriageRetried_keeps _ _ h
  · exact Keeps.ite' (retryQueued_keeps _ _ _ h) (Keeps.ite' h (admitClaim_keeps _ _ _ (clearStale_keeps _ _ h)))

theorem removeAndServe_keeps (o : Station) (t : Tag) {f : State → State} (hf : ∀ x, Keeps a x → Keeps a (f x))
    (h : Keeps a s) : Keeps a (removeAndServe o t f s) :=
  Keeps.ite' (serve_keeps (hf _ (removeClaim_keeps _ _ h))) (hf _ (removeClaim_keeps _ _ h))

@[simp] theorem claimRejoin_keeps (o : Station) (t : Tag) (k : LaneMask) (h : Keeps a s) :
    Keeps a (claimRejoin o t k s) := by
  unfold claimRejoin; dsimp only; split
  · exact carriageRejoin_keeps _ _ h
  · exact Keeps.ite' (removeAndServe_keeps _ _ (fun _ => handOver_keeps _) h)
      (Keeps.ite' h (handOver_keeps _ (clearStale_keeps _ _ h)))

@[simp] theorem arbiterClaim_keeps (f : Rx) (h : Keeps a s) : Keeps a (arbiterClaim f s) :=
  Keeps.ite' h.dropFrame
    (Keeps.ite' (claimNew_keeps _ _ _ (endTest_keeps _ h)) (claimRejoin_keeps _ _ _ (endTest_keeps _ h)))

@[simp] theorem arbiterConnect_keeps (f : Rx) (h : Keeps a s) : Keeps a (arbiterConnect f s) := by
  unfold arbiterConnect
  refine Keeps.ite' h.dropFrame ?_
  split
  · exact carriageConnect_keeps _ _ _ h
  · exact h.dropFrame

@[simp] theorem arbiterRelease_keeps (f : Rx) (h : Keeps a s) : Keeps a (arbiterRelease f s) := by
  unfold arbiterRelease
  refine Keeps.ite' h.dropFrame ?_
  split
  · exact carriageReleased_keeps _ h
  · exact Keeps.ite' (removeAndServe_keeps _ _ (fun _ => id) h) h.dropFrame

/-- R60, R173: a CONNECT that names no carriage record is discarded and counted. -/
theorem arbiterConnect_discards {f : Rx} {s : State} (h : s.carriageOf f.sender.toNat (octetAt f.payload 0) = none) :
    arbiterConnect f s = s.dropFrame := by
  unfold arbiterConnect; rw [h]; simp

/-- R60, R173: a RELEASE that names neither a carriage record nor a queue entry is discarded and counted. -/
theorem arbiterRelease_discards {f : Rx} {s : State} (h : s.carriageOf f.sender.toNat (octetAt f.payload 0) = none)
    (q : s.queued f.sender.toNat (octetAt f.payload 0) = false) : arbiterRelease f s = s.dropFrame := by
  unfold arbiterRelease; rw [h]; simp [q]

@[simp] theorem placeLocal_keeps (t : Tag) (h : Keeps a s) : Keeps a (placeLocal t s) := by
  unfold placeLocal; split
  · exact grantLocal_keeps _ _ h
  · rename_i q
    refine joinClaims_keeps _ ?_ h
    by_contra c
    unfold localAnswer at q
    rw [if_neg c] at q
    repeat' split at q
    all_goals cases q
  · exact h

@[simp] theorem refreshWait_keeps (o : Station) (t : Tag) (h : Keeps a s) : Keeps a (refreshWait o t s) := by
  unfold refreshWait; split
  · exact h
  · exact Keeps.ite' (handOver_keeps _ (updClaim_keeps _ _ _ h)) h

@[simp] theorem claimExpires_keeps (o : Station) (t : Tag) (h : Keeps a s) : Keeps a (claimExpires o t s) := by
  unfold claimExpires; split
  · exact h
  · exact Keeps.ite' (removeAndServe_keeps _ _ (fun _ k => Keeps.ite' (k.notify _) (handOver_keeps _ k)) h) h

@[simp] theorem withdrawLocal_keeps (t : Tag) (h : Keeps a s) : Keeps a (withdrawLocal t s) := by
  unfold withdrawLocal; split
  · exact Keeps.ite' (removeAndServe_keeps _ _ (fun _ => id) h) h
  · exact h

end Sys2Proof.Machine
end

