-- ==== Sys2Proof/Laws/Origin.lean ====
section
/-! SUPPORT. What the operations of the Call Origin Controller keep: the avoid list stays within four entries, one a station. -/

namespace Sys2Proof.Machine

variable {a s : State}

/-! ## The avoid list (R32) -/

theorem avoidOk_filter {l : List AvoidEntry} (p : AvoidEntry → Bool) (h : avoidOk l) : avoidOk (l.filter p) :=
  ⟨Nat.le_trans (List.length_filter_le _ _) h.1, h.2.sublist (List.filter_sublist.map _)⟩

theorem avoidWith_ok {l : List AvoidEntry} (st : Station) (t : Time) (h : avoidOk l) : avoidOk (avoidWith l st t) := by
  have k := avoidOk_filter (fun e => e.station != st) h
  have n : ∀ e ∈ l.filter fun e => e.station != st, e.station ≠ st := fun e he => by
    simpa using (List.mem_filter.1 he).2
  unfold avoidWith
  dsimp only
  generalize (l.filter fun e => e.station != st) = o at k n
  have step : ∀ o : List AvoidEntry, o.length ≤ 3 → (o.map AvoidEntry.station).Nodup → (∀ e ∈ o, e.station ≠ st) →
      avoidOk (o ++ [{ station := st, enteredAt := t }]) := fun o h1 h2 h3 => by
    refine ⟨by simp; omega, ?_⟩
    rw [List.map_append]
    refine List.Nodup.append h2 (by simp) ?_
    simp only [List.map_cons, List.map_nil]
    intro x hx hy
    obtain ⟨e, he, rfl⟩ := List.mem_map.1 hx
    exact h3 e he (by simpa using hy)
  split
  · refine step _ ?_ ?_ fun e he => n e (List.mem_of_mem_tail he)
    · have := k.1; simp; omega
    · rw [List.map_tail]; exact k.2.sublist (List.tail_sublist _)
  · exact step _ (by omega) k.2 n

@[simp] theorem addAvoid_keeps (st : Station) (h : Keeps a s) : Keeps a (addAvoid st s) :=
  h.updCoc fun k => avoidWith_ok _ _ k

@[simp] theorem leaveAvoid_keeps (st : Station) (h : Keeps a s) : Keeps a (leaveAvoid st s) :=
  h.updCoc fun k => avoidOk_filter _ k

/-! ## The record -/

@[simp] theorem drawTag_keeps (h : Keeps a s) : Keeps a (drawTag s) := h.updCocAvoid _ (by intro _; rfl)

@[simp] theorem enterOrigin_keeps (st : OriginState) (h : Keeps a s) : Keeps a (enterOrigin st s) :=
  requestLamp_keeps _ (h.updCocAvoid (fun c => { c with state := st }) (by intro _; rfl))

@[simp] theorem askPrompt_keeps (p : Prompt) (h : Keeps a s) : Keeps a (askPrompt p s) := requestPrompt_keeps _ _ _ _ _ h

@[simp] theorem dropLane_keeps (q : Bool) (h : Keeps a s) : Keeps a (dropLane q s) := by
  have k := clearRoutes_keeps .origin h
  unfold dropLane; dsimp only; split
  · exact k
  · refine Keeps.updCocAvoid (releaseLane_keeps _ _ ?_) _ (by intro _; rfl)
    split <;> [exact quarantineLane_keeps _ k; exact k]

@[simp] theorem releaseUplink_keeps (r : ReleaseReason) (h : Keeps a s) : Keeps a (releaseUplink r s) := by
  unfold releaseUplink; split
  · exact handOver_keeps _ h
  · exact h

@[simp] theorem avoidPath_keeps (h : Keeps a s) : Keeps a (avoidPath s) := by
  unfold avoidPath; split
  · exact addAvoid_keeps _ h
  · exact h

@[simp] theorem enterIdle_keeps (h : Keeps a s) : Keeps a (enterIdle s) :=
  enterOrigin_keeps _ (h.updCocAvoid _ (by intro _; rfl))

@[simp] theorem beginWait_keeps (h : Keeps a s) : Keeps a (beginWait s) :=
  h.updCocAvoid (fun c => { c with retryTime := some (s.now + retryWait) }) (by intro _; rfl)

@[simp] theorem sendClaim_keeps (k : ClaimKind) (st : Station) (h : Keeps a s) : Keeps a (sendClaim k st s) :=
  handOver_keeps _ (h.updCocAvoid _ (by intro _; rfl))

@[simp] theorem claimPeer_keeps (st : Station) (h : Keeps a s) : Keeps a (claimPeer st s) :=
  enterOrigin_keeps _ (sendClaim_keeps _ _ (h.updCocAvoid _ (by intro _; rfl)))

@[simp] theorem localTurnedAway_keeps (h : Keeps a s) : Keeps a (localTurnedAway s) :=
  (addAvoid_keeps _ h).updCocAvoid _ (by intro _; rfl)

@[simp] theorem enterSeekingState_keeps (h : Keeps a s) : Keeps a (enterSeekingState s) :=
  enterOrigin_keeps _ (h.updCocAvoid _ (by intro _; rfl))

@[simp] theorem claimLocal_keeps (h : Keeps a s) : Keeps a (claimLocal s) := by
  unfold claimLocal
  have k : Keeps a (enterOrigin .claiming (s.updCoc fun c =>
      { c with path := some { kind := .loc, station := s.own, module := none, lane := none }, claimKind := .new,
               attempts := 0 })) := enterOrigin_keeps _ (h.updCocAvoid _ (by intro _; rfl))
  have k2 := clearStale_keeps s.own (enterOrigin .claiming (s.updCoc fun c =>
      { c with path := some { kind := .loc, station := s.own, module := none, lane := none }, claimKind := .new,
               attempts := 0 })).coc.tag k
  dsimp only
  split
  · exact placeLocal_keeps _ (k2.updCocAvoid _ (by intro _; rfl))
  · exact enterOrigin_keeps _ ((placeLocal_keeps _ (k2.updCocAvoid _ (by intro _; rfl))).updCocAvoid _ (by intro _; rfl))
  · exact beginWait_keeps (enterSeekingState_keeps (localTurnedAway_keeps k2))

@[simp] theorem enterSeeking_keeps (h : Keeps a s) : Keeps a (enterSeeking s) := by
  have k := enterSeekingState_keeps h
  unfold enterSeeking; dsimp only
  split
  · exact beginWait_keeps k
  · split
    · exact claimLocal_keeps k
    · exact Keeps.ite' (beginWait_keeps k) (claimPeer_keeps _ k)

@[simp] theorem endWait_keeps (h : Keeps a s) : Keeps a (endWait s) :=
  enterSeeking_keeps (h.updCocAvoid _ fun _ => rfl)

@[simp] theorem wakeOrigin_keeps (h : Keeps a s) : Keeps a (wakeOrigin s) := Keeps.ite' (endWait_keeps h) h

@[simp] theorem retryReached_keeps (h : Keeps a s) : Keeps a (retryReached s) := Keeps.ite' (endWait_keeps h) h

@[simp] theorem localRefusal_keeps (h : Keeps a s) : Keeps a (localRefusal s) :=
  Keeps.ite' (enterSeeking_keeps (localTurnedAway_keeps h)) h

@[simp] theorem beginRecovery_keeps (h : Keeps a s) : Keeps a (beginRecovery s) :=
  enterOrigin_keeps _ (askPrompt_keeps _ (h.updCocAvoid _ (by intro _; rfl)))

@[simp] theorem freshSearch_keeps (h : Keeps a s) : Keeps a (freshSearch s) := by
  unfold freshSearch
  refine enterSeeking_keeps (Keeps.updCocAvoid (drawTag_keeps (Keeps.updCocAvoid (Keeps.ite' (beginRecovery_keeps h) h)
    _ (by intro _; rfl))) _ (by intro _; rfl))

@[simp] theorem failPath_keeps (b : Bool) (h : Keeps a s) : Keeps a (failPath b s) := by
  have k : Keeps a (if b = true then releaseUplink .abandon s else s) := Keeps.ite' (releaseUplink_keeps _ h) h
  have k2 := (dropLane_keeps false k).updCocAvoid Origin.settled (by intro _; rfl)
  unfold failPath; dsimp only
  split
  · exact enterSeeking_keeps (avoidPath_keeps k2)
  · exact freshSearch_keeps (Keeps.ite' k2 (avoidPath_keeps k2))

/-! ## Grants and probes -/

theorem probeLane_keeps (l : Lane) (m : Mod) (z : s.own ≠ 0) (h : Keeps a s) : Keeps a (probeLane l m s) :=
  startEngine_keeps _ _ _ _ _ (enterOrigin_keeps _ ((takeLane_keeps _ _ z h).updCocAvoid _ (by intro _; rfl)))

@[simp] theorem takeGrant_keeps (l m f : Nat) (h : Keeps a s) : Keeps a (takeGrant l m f s) := by
  unfold takeGrant; split
  · split
    · rename_i q
      rw [Bool.and_eq_true] at q
      exact probeLane_keeps _ _ (originMayTake_own q.2) h
    · exact failPath_keeps _ h
  · exact failPath_keeps _ h

@[simp] theorem probePasses_keeps (st : Station) (l : Lane) (h : Keeps a s) : Keeps a (probePasses st l s) :=
  superviseLane_keeps _ (setOriginRoutes_keeps (enterOrigin_keeps _ ((handOver_keeps _ h).updCocAvoid _ (by intro _; rfl))))

@[simp] theorem probeFails_keeps (st : Station) (l : Lane) (o : ProbeOutcome) (h : Keeps a s) :
    Keeps a (probeFails st l o s) := by
  unfold probeFails
  exact (dropLane_keeps _ (handOver_keeps _ h)).updCocAvoid _ (by intro _; rfl)

@[simp] theorem originProbeEnds_keeps (o : ProbeOutcome) (h : Keeps a s) : Keeps a (originProbeEnds o s) := by
  unfold originProbeEnds; split
  · exact Keeps.ite' (probePasses_keeps _ _ h) (probeFails_keeps _ _ _ h)
  · exact h

@[simp] theorem recoverCall_keeps (st : Station) (h : Keeps a s) : Keeps a (recoverCall st s) :=
  sendClaim_keeps _ _ ((beginRecovery_keeps (dropLane_keeps _ h)).updCocAvoid _ (by intro _; rfl))

@[simp] theorem originLaneLoss_keeps (h : Keeps a s) : Keeps a (originLaneLoss s) := by
  unfold originLaneLoss; split
  · exact h
  · exact Keeps.ite' ((enterOrigin_keeps _ (dropLane_keeps _ h)).updCocAvoid _ (by intro _; rfl))
      (Keeps.ite' (recoverCall_keeps _ h) h)

/-! ## Frames -/

theorem originFrame_keeps (n : Nat) (f : Rx) {g : State → State} (hg : ∀ x, Keeps a x → Keeps a (g x))
    (h : Keeps a s) : Keeps a (originFrame n f g s) := Keeps.ite' h.dropFrame (Keeps.ite' h (hg _ h))

@[simp] theorem ownGrant_keeps (st : Station) (t : Tag) (l m f : Nat) (h : Keeps a s) :
    Keeps a (ownGrant st t l m f s) := by
  have k := takeGrant_keeps l m f h
  have q := takeGrant_keeps l m f (dropLane_keeps true h)
  have late : Keeps a (handOver (releaseFrame st t .late) s) := handOver_keeps _ h
  unfold ownGrant; dsimp only
  split <;> try assumption
  · exact Keeps.ite' k (Keeps.ite' h q)
  · refine Keeps.ite' (Keeps.ite' ?_ q) (Keeps.ite' h late)
    split
    · exact handOver_keeps _ h
    · exact h
  · exact Keeps.ite' h late

@[simp] theorem originGrant_keeps (f : Rx) (h : Keeps a s) : Keeps a (originGrant f s) :=
  Keeps.ite' (ownGrant_keeps _ _ _ _ _ h) (handOver_keeps _ h)

@[simp] theorem originWait_keeps (f : Rx) (h : Keeps a s) : Keeps a (originWait f s) := by
  unfold originWait
  refine Keeps.ite' ?_ h
  have k : Keeps a (s.updCoc fun c =>
      { c with queuePos := some (octAt f.payload 1), silenceDeadline := some (s.now + silenceTime),
               answerDeadline := none }) := h.updCocAvoid _ (by intro _; rfl)
  dsimp only
  split <;> first | assumption | exact enterOrigin_keeps _ k

@[simp] theorem claimAgain_keeps (st : Station) (h : Keeps a s) : Keeps a (claimAgain st s) :=
  sendClaim_keeps _ _ (h.updCocAvoid _ (by intro _; rfl))

@[simp] theorem rejoinRefused_keeps (r : RefuseReason) (st : Station) (h : Keeps a s) : Keeps a (rejoinRefused r st s) := by
  have k := h.updCocAvoid (fun c => { c with answerDeadline := none }) (by intro _; rfl)
  exact Keeps.ite' (Keeps.ite' (claimAgain_keeps _ k) (freshSearch_keeps (releaseUplink_keeps _ k))) (freshSearch_keeps k)

@[simp] theorem originRefuse_keeps (f : Rx) (h : Keeps a s) : Keeps a (originRefuse f s) := by
  unfold originRefuse
  refine Keeps.ite' ?_ h
  split <;> first
    | assumption
    | exact failPath_keeps _ h
    | exact Keeps.ite' (failPath_keeps _ h) h
    | exact rejoinRefused_keeps _ _ h

@[simp] theorem originProgress_keeps (f : Rx) (h : Keeps a s) : Keeps a (originProgress f s) := by
  unfold originProgress
  refine Keeps.ite' ?_ h
  split
  · exact originStage_keeps _ _ h
  · exact h

theorem pathEnds_afterDrop_keeps (h : Keeps a s) : Keeps a (pathEnds.afterDrop s) :=
  Keeps.ite' (freshSearch_keeps h) (enterSeeking_keeps (avoidPath_keeps h))

@[simp] theorem pathEnds_keeps (r : ReleaseReason) (h : Keeps a s) : Keeps a (pathEnds r s) := by
  have k := dropLane_keeps false h
  unfold pathEnds; dsimp only
  split <;> first
    | exact pathEnds_afterDrop_keeps k
    | exact enterIdle_keeps (k.updCocAvoid _ (by intro _; rfl))
    | exact Keeps.ite' (freshSearch_keeps (avoidPath_keeps k)) (enterSeeking_keeps (avoidPath_keeps k))

@[simp] theorem rejoinReleased_keeps (r : ReleaseReason) (h : Keeps a s) : Keeps a (rejoinReleased r s) :=
  Keeps.ite' (enterIdle_keeps (h.updCocAvoid (fun c => { c with endReason := .farClear }) (by intro _; rfl)))
    (freshSearch_keeps (Keeps.ite' (avoidPath_keeps h) h))

@[simp] theorem originRelease_keeps (r : ReleaseReason) (f : Rx) (h : Keeps a s) : Keeps a (originRelease r f s) := by
  refine Keeps.ite' h (Keeps.ite' ?_ h)
  unfold ownRelease
  split <;> first
    | assumption
    | exact failPath_keeps _ h
    | exact pathEnds_keeps _ h
    | exact rejoinReleased_keeps _ h

@[simp] theorem localEnds_keeps (r : ReleaseReason) (h : Keeps a s) : Keeps a (localEnds r s) :=
  Keeps.ite' (pathEnds_keeps _ h) h

/-! ## Deadlines, press, tick, RESTART -/

@[simp] theorem answerReached_keeps (h : Keeps a s) : Keeps a (answerReached s) := by
  unfold answerReached
  refine Keeps.ite' ?_ h
  split
  · exact h
  · split <;> first
      | assumption
      | exact Keeps.ite' (claimAgain_keeps _ h) (failPath_keeps _ h)
      | exact Keeps.ite' (claimAgain_keeps _ h) (freshSearch_keeps (avoidPath_keeps (releaseUplink_keeps _ h)))

@[simp] theorem silenceReached_keeps (h : Keeps a s) : Keeps a (silenceReached s) := Keeps.ite' (failPath_keeps _ h) h

@[simp] theorem regrantReached_keeps (h : Keeps a s) : Keeps a (regrantReached s) := Keeps.ite' (failPath_keeps _ h) h

@[simp] theorem withdrawOwn_keeps (h : Keeps a s) : Keeps a (withdrawOwn s) := Keeps.ite' (withdrawLocal_keeps _ h) h

@[simp] theorem searchFails_keeps (h : Keeps a s) : Keeps a (searchFails s) :=
  enterOrigin_keeps _ (askPrompt_keeps _ ((dropLane_keeps _ (withdrawOwn_keeps (releaseUplink_keeps _ h))).updCocAvoid _
    (by intro _; rfl)))

@[simp] theorem searchReached_keeps (h : Keeps a s) : Keeps a (searchReached s) := Keeps.ite' (searchFails_keeps h) h

@[simp] theorem failedReached_keeps (h : Keeps a s) : Keeps a (failedReached s) :=
  Keeps.ite' (enterIdle_keeps (h.updCocAvoid (fun c => { c with endReason := .failed }) (by intro _; rfl))) h

@[simp] theorem newCall_keeps (h : Keeps a s) : Keeps a (newCall s) :=
  enterSeeking_keeps (askPrompt_keeps _ ((drawTag_keeps (h.updCocAvoid _ (by intro _; rfl))).count _))

@[simp] theorem originPress_keeps (h : Keeps a s) : Keeps a (originPress s) :=
  Keeps.ite' (newCall_keeps h) (h.updCocAvoid _ (by intro _; rfl))

@[simp] theorem originTick_keeps (h : Keeps a s) : Keeps a (originTick s) := Keeps.ite' (askPrompt_keeps _ h) h

@[simp] theorem restartOrigin_keeps (h : Keeps a s) : Keeps a (restartOrigin s) := by
  unfold restartOrigin
  refine Keeps.updCoc (dropLane_keeps _ (Keeps.ite' h (releaseUplink_keeps _ h))) fun _ => ?_
  exact ⟨by simp, by simp⟩

end Sys2Proof.Machine
end

