-- ==== Sys2Proof/Laws/Offers.lean ====
section
/-! SUPPORT. The Offer Table keeps its order, its bound and its stations; what the offer schedule's operations keep. -/

namespace Sys2Proof.Machine

variable {a s : State}

/-! ## The table (1.4) -/

theorem offerTableOk_filter {n : Station} {t : List OfferEntry} (p : OfferEntry → Bool) (h : offerTableOk n t) :
    offerTableOk n (t.filter p) :=
  ⟨Nat.le_trans (List.length_filter_le _ _) h.1, h.2.1.sublist List.filter_sublist,
    fun e he => h.2.2 e (List.mem_of_mem_filter he)⟩

theorem insertEntry_perm (e : OfferEntry) (t : List OfferEntry) : (insertEntry e t).Perm (e :: t) := by
  induction t with
  | nil => exact List.Perm.refl _
  | cons x xs ih =>
    unfold insertEntry
    split
    · exact List.Perm.refl _
    · exact (ih.cons x).trans (List.Perm.swap _ _ _)

theorem insertEntry_sorted {e : OfferEntry} {t : List OfferEntry} (h : t.Pairwise fun x y => x.station < y.station)
    (k : ∀ x ∈ t, x.station ≠ e.station) : (insertEntry e t).Pairwise fun x y => x.station < y.station := by
  induction t with
  | nil => simp [insertEntry]
  | cons x xs ih =>
    rw [List.pairwise_cons] at h
    have n := k x List.mem_cons_self
    unfold insertEntry
    split
    · rename_i b
      have b : e.station < x.station := Nat.lt_of_le_of_ne b (Ne.symm n)
      refine List.pairwise_cons.2 ⟨fun z hz => ?_, List.pairwise_cons.2 h⟩
      rcases List.mem_cons.1 hz with rfl | hz
      · exact b
      · exact Nat.lt_trans b (h.1 z hz)
    · rename_i b
      refine List.pairwise_cons.2 ⟨fun z hz => ?_, ih h.2 fun z hz => k z (List.mem_cons_of_mem _ hz)⟩
      rcases List.mem_cons.1 ((insertEntry_perm e xs).mem_iff.1 hz) with rfl | hz
      · exact Nat.lt_of_not_le b
      · exact h.1 z hz

theorem insertEntry_ok {n : Station} {e : OfferEntry} {t : List OfferEntry} (h : offerTableOk n t) (l : t.length < 30)
    (k : ∀ x ∈ t, x.station ≠ e.station) (r : 1 ≤ e.station ∧ e.station ≤ 31 ∧ e.station ≠ n) :
    offerTableOk n (insertEntry e t) := by
  refine ⟨?_, insertEntry_sorted h.2.1 k, fun x hx => ?_⟩
  · rw [(insertEntry_perm e t).length_eq]; simpa using l
  · rcases List.mem_cons.1 ((insertEntry_perm e t).mem_iff.1 hx) with rfl | hx
    · exact r
    · exact h.2.2 x hx

theorem oldestEntry_mem {t : List OfferEntry} {e : OfferEntry} (h : oldestEntry t = some e) : e ∈ t := by
  induction t generalizing e with
  | nil => simp [oldestEntry] at h
  | cons x xs ih =>
    unfold oldestEntry at h
    split at h
    · cases h; exact List.mem_cons_self
    · rename_i y q
      split at h <;> cases h
      · exact List.mem_cons_self
      · exact List.mem_cons_of_mem _ (ih q)

theorem oldestEntry_none {t : List OfferEntry} (h : oldestEntry t = none) : t = [] := by
  cases t with
  | nil => rfl
  | cons x xs =>
    unfold oldestEntry at h
    split at h
    · cases h
    · split at h <;> cases h

theorem dropEntry_ok {n : Station} {t : List OfferEntry} (st : Station) (h : offerTableOk n t) :
    offerTableOk n (dropEntry st t) := offerTableOk_filter _ h

theorem dropEntry_ne (st : Station) (t : List OfferEntry) : ∀ x ∈ dropEntry st t, x.station ≠ st := fun x hx => by
  simpa using (List.mem_filter.1 hx).2

theorem dropEntry_lt {t : List OfferEntry} {e : OfferEntry} (h : e ∈ t) : (dropEntry e.station t).length < t.length :=
  List.length_filter_lt_length_iff_exists.2 ⟨e, h, by simp⟩

theorem makeRoom_ok {n : Station} {t : List OfferEntry} (h : offerTableOk n t) :
    offerTableOk n (makeRoom t) ∧ (makeRoom t).length < 30 ∧ ∀ x ∈ makeRoom t, x ∈ t := by
  unfold makeRoom
  split
  · exact ⟨h, ‹_›, fun x hx => hx⟩
  · split
    · rename_i e q
      exact ⟨dropEntry_ok _ h, Nat.lt_of_lt_of_le (dropEntry_lt (oldestEntry_mem q)) h.1,
        fun x hx => List.mem_of_mem_filter hx⟩
    · rename_i l _ q; rw [oldestEntry_none q] at l; simp at l

theorem hasEntry_iff (st : Station) (t : List OfferEntry) : hasEntry st t = true ↔ ∃ e ∈ t, e.station = st := by
  unfold hasEntry; simp

theorem storeOffer_keeps (e : OfferEntry) (r : 1 ≤ e.station ∧ e.station ≤ 31 ∧ e.station ≠ s.own) (h : Keeps a s) :
    Keeps a (storeOffer e s) := by
  unfold storeOffer
  split
  · rename_i b
    obtain ⟨x, hx, q⟩ := (hasEntry_iff _ _).1 b
    exact h.withOffers fun k => insertEntry_ok (dropEntry_ok _ k)
      (Nat.lt_of_lt_of_le (q ▸ dropEntry_lt hx) k.1) (dropEntry_ne _ _) r
  · rename_i b
    refine Keeps.notify (h.withOffers fun k => ?_) _
    obtain ⟨h1, h2, h3⟩ := makeRoom_ok k
    exact insertEntry_ok h1 h2 (fun x hx q => b ((hasEntry_iff _ _).2 ⟨x, h3 x hx, q⟩)) r

theorem receiveOffer_keeps (f : Rx) (r : f.sender.toNat ≤ 31) (q : f.sender.toNat ≠ s.own) (h : Keeps a s) :
    Keeps a (receiveOffer f s) := by
  unfold receiveOffer
  split
  · exact h
  · rename_i n
    split
    · exact h.dropFrame
    · exact h.withOffers fun k => dropEntry_ok _ k
    · refine storeOffer_keeps _ ⟨?_, r, q⟩ h
      refine Nat.one_le_iff_ne_zero.2 fun z => n ?_
      exact BitVec.eq_of_toNat_eq z

@[simp] theorem expireEntry_keeps (st : Station) (h : Keeps a s) : Keeps a (expireEntry st s) :=
  h.withOffers fun k => offerTableOk_filter _ k

/-! ## The schedule (1.2) -/

/-- R9, R10: nothing holds a hand-over up but a last hand-over less than 250 ms ago (log 51). -/
theorem spaced_iff (s : State) : spaced s = true ↔ ∀ x, s.sched.lastHandover = some x → x + offerSpacing ≤ s.now := by
  unfold spaced; cases s.sched.lastHandover <;> simp

@[simp] theorem announceOffer_keeps (h : Keeps a s) : Keeps a (announceOffer s) := (handOver_keeps _ h).updSched _

@[simp] theorem offerDue_keeps (k : DeferredOffer) (h : Keeps a s) : Keeps a (offerDue k s) :=
  Keeps.ite' (announceOffer_keeps h) (h.updSched _)

@[simp] theorem withdrawOffer_keeps (h : Keeps a s) : Keeps a (withdrawOffer s) := (handOver_keeps _ h).updSched _

@[simp] theorem startSchedule_keeps (h : Keeps a s) : Keeps a (startSchedule s) := h.withSched _

@[simp] theorem firstOffer_keeps (h : Keeps a s) : Keeps a (firstOffer s) :=
  Keeps.ite' (Keeps.ite' (announceOffer_keeps (h.updSched _)) (h.updSched _)) h

@[simp] theorem periodicOffer_keeps (h : Keeps a s) : Keeps a (periodicOffer s) := Keeps.ite' (offerDue_keeps _ h) h

@[simp] theorem changeOffer_keeps (h : Keeps a s) : Keeps a (changeOffer s) := by
  have k := h.updSched fun x => { x with changeDeadline := none }
  exact Keeps.ite' (Keeps.ite' (offerDue_keeps _ k) k) h

@[simp] theorem spacingEnds_keeps (h : Keeps a s) : Keeps a (spacingEnds s) :=
  Keeps.ite' (Keeps.ite' (announceOffer_keeps h) (Keeps.ite' (withdrawOffer_keeps h) h)) h

@[simp] theorem flagTurnsNo_keeps (h : Keeps a s) : Keeps a (flagTurnsNo s) :=
  Keeps.ite' (withdrawOffer_keeps (h.updSched _)) (h.updSched _)

@[simp] theorem flagTurnsYes_keeps (h : Keeps a s) : Keeps a (flagTurnsYes s) := h.updSched _

@[simp] theorem compareContent_keeps (h : Keeps a s) : Keeps a (compareContent s) := Keeps.ite' (h.updSched _) h

@[simp] theorem offerSync_keeps (s0 : State) (h : Keeps a s) : Keeps a (offerSync s0 s) := by
  unfold offerSync
  refine Keeps.ite' ?_ (Keeps.ite' (compareContent_keeps h) h)
  split
  · exact Keeps.ite' h (flagTurnsNo_keeps h)
  · exact Keeps.ite' (flagTurnsYes_keeps h) h
  · exact h
  · exact h

end Sys2Proof.Machine
end

