-- ==== Sys2Proof/Laws/Events.lean ====
section
/-! SUPPORT. What the frame of an event keeps, and the operations of the probes, the service responder and the reception. -/

namespace Sys2Proof.Machine

variable {a s : State}

/-! ## The beginning of an event -/

@[simp] theorem startEvent_now (t : Time) (s : State) : (startEvent t s).now = max s.now t := rfl
@[simp] theorem startEvent_out (t : Time) (s : State) : (startEvent t s).out = [] := rfl
@[simp] theorem startEvent_notices (t : Time) (s : State) : (startEvent t s).notices = [] := rfl
@[simp] theorem startEvent_inReset (t : Time) (s : State) : (startEvent t s).inReset = s.inReset := rfl
@[simp] theorem startEvent_straps (t : Time) (s : State) : (startEvent t s).straps = s.straps := rfl
@[simp] theorem startEvent_sched (t : Time) (s : State) : (startEvent t s).sched = s.sched := rfl
@[simp] theorem startEvent_offerTable (t : Time) (s : State) : (startEvent t s).offerTable = s.offerTable := rfl
@[simp] theorem startEvent_coc (t : Time) (s : State) : (startEvent t s).coc = s.coc := rfl
@[simp] theorem startEvent_claims (t : Time) (s : State) : (startEvent t s).claims = s.claims := rfl
@[simp] theorem startEvent_carriages (t : Time) (s : State) : (startEvent t s).carriages = s.carriages := rfl
@[simp] theorem startEvent_modules (t : Time) (s : State) : (startEvent t s).modules = s.modules := rfl
@[simp] theorem startEvent_lanes (t : Time) (s : State) : (startEvent t s).lanes = s.lanes := rfl
@[simp] theorem startEvent_engines (t : Time) (s : State) : (startEvent t s).engines = s.engines := rfl
@[simp] theorem startEvent_csw (t : Time) (s : State) : (startEvent t s).csw = s.csw := rfl
@[simp] theorem startEvent_button (t : Time) (s : State) : (startEvent t s).button = s.button := rfl
@[simp] theorem startEvent_lamp (t : Time) (s : State) : (startEvent t s).lamp = s.lamp := rfl
@[simp] theorem startEvent_supply (t : Time) (s : State) : (startEvent t s).supply = s.supply := rfl
@[simp] theorem startEvent_band (t : Time) (s : State) : (startEvent t s).band = s.band := rfl
@[simp] theorem startEvent_counters (t : Time) (s : State) : (startEvent t s).counters = s.counters := rfl
@[simp] theorem startEvent_svc (t : Time) (s : State) : (startEvent t s).svc = s.svc := rfl
@[simp] theorem startEvent_freeTick (t : Time) (s : State) : (startEvent t s).freeTick = s.freeTick := rfl
@[simp] theorem startEvent_pending (t : Time) (s : State) : (startEvent t s).pending = s.pending := rfl

/-! ## Notices -/

theorem noting_keeps {f : State → State} (hf : ∀ x, Keeps a x → Keeps a (f x)) (h : Keeps a s) : Keeps a (noting f s) :=
  noteFreed_keeps _ (hf _ h)

@[simp] theorem handleNotice_keeps (n : Notice) (h : Keeps a s) : Keeps a (handleNotice n s) := by
  unfold handleNotice
  split
  · exact noting_keeps (fun _ => wakeOrigin_keeps) (noting_keeps (fun _ => serve_keeps) h)
  · exact noting_keeps (fun _ => wakeOrigin_keeps) (noting_keeps (fun _ => serveOnLane_keeps) h)
  · exact noting_keeps (fun _ => wakeOrigin_keeps) h
  · exact noting_keeps (fun _ => localEnds_keeps _) h
  · exact noting_keeps (fun _ => localRefusal_keeps) h

@[simp] theorem drain_keeps (n : Nat) (h : Keeps a s) : Keeps a (drain n s) := by
  induction n generalizing s with
  | zero => exact h
  | succ n ih =>
    unfold drain
    split
    · exact h
    · exact ih (handleNotice_keeps _ (h.withNotices _))

/-- An event, outside a full reset. -/
theorem event_eq (t : Time) (op : State → State) (s : State) (h : s.inReset = false) :
    event t op s = offerSync (startEvent t s) (drain noticeFuel (noting op (startEvent t s))) := by
  unfold event; dsimp only; rw [if_neg]; simpa [startEvent] using h

/-- A local event, outside a full reset. -/
theorem localEvent_eq (t : Time) (op : State → State) (s : State) (h : s.inReset = false) :
    localEvent t op s = op (startEvent t s) := by
  unfold localEvent; dsimp only; rw [if_neg]; simpa [startEvent] using h

/-- An event keeps what its operation keeps. -/
theorem event_keeps (t : Time) {op : State → State} (s : State) (ho : Keeps (startEvent t s) (op (startEvent t s))) :
    Keeps (startEvent t s) (event t op s) := by
  unfold event
  exact Keeps.ite' (Keeps.rfl' _) (offerSync_keeps _ (drain_keeps _ (noteFreed_keeps _ ho)))

theorem localEvent_keeps (t : Time) {op : State → State} (s : State) (ho : Keeps (startEvent t s) (op (startEvent t s))) :
    Keeps (startEvent t s) (localEvent t op s) := by
  unfold localEvent
  exact Keeps.ite' (Keeps.rfl' _) ho

/-! ## Drain on a calm state -/

/-- The notices of a module that comes grantable, a lane that comes free and a new Offer Table entry. -/
def Notice.quiet : Notice → Bool
  | .grantable _ => true
  | .laneFree _ => true
  | .newEntry => true
  | .localEnd _ => false
  | .localRefused => false

theorem noteFreed_self (s : State) : noteFreed s s = s := by
  unfold noteFreed noteModule turnsGrantable; simp

theorem noting_id {f : State → State} (h : f s = s) : noting f s = s := by
  unfold noting; rw [h, noteFreed_self]

theorem serve_nil (h : s.claims = []) : serve s = s := by unfold serve; rw [h]; rfl

theorem serveOnLane_nil (h : s.claims = []) : serveOnLane s = s := by unfold serveOnLane; rw [h]

theorem wakeOrigin_calm (h : s.waitsForCandidate = false) : wakeOrigin s = s := by unfold wakeOrigin; rw [h]; rfl

/-- In a calm state, the notices of a freed module or lane and of a new entry bring about nothing. -/
theorem handleNotice_calm {n : Notice} (h : s.calm) (q : n.quiet = true) : handleNotice n s = s := by
  obtain ⟨h1, h2⟩ := h
  have w : noting wakeOrigin s = s := noting_id (wakeOrigin_calm h2)
  cases n <;> simp [Notice.quiet] at q <;> unfold handleNotice <;> dsimp only
  · rw [noting_id (serve_nil h1), w]
  · rw [noting_id (serveOnLane_nil h1), w]
  · exact w

/-- In a calm state, draining quiet notices only clears them. -/
theorem drain_calm (n : Nat) (h : s.calm) (q : ∀ x ∈ s.notices, x.quiet = true) (l : s.notices.length ≤ n) :
    drain n s = { s with notices := [] } := by
  induction n generalizing s with
  | zero =>
    have e : s.notices = [] := by simpa using l
    cases s; simp at e; subst e; rfl
  | succ n ih =>
    unfold drain
    split
    · rename_i e; cases s; simp at e; subst e; rfl
    · rename_i x rest e
      rw [e] at q l
      have c : State.calm { s with notices := rest } := h
      rw [handleNotice_calm c (q x List.mem_cons_self)]
      exact ih c (fun y hy => q y (List.mem_cons_of_mem _ hy)) (by simpa using l)

/-- Draining no notice. -/
theorem drain_nil (n : Nat) (h : s.notices = []) : drain n s = s := by
  cases n <;> simp [drain, h]

/-! ## Probes -/

@[simp] theorem countProbeFailure_keeps (o : ProbeOutcome) (h : Keeps a s) : Keeps a (countProbeFailure o s) :=
  Keeps.ite' h (h.count _)

@[simp] theorem reportOutcome_keeps (e : EngineId) (o : ProbeOutcome) (h : Keeps a s) : Keeps a (reportOutcome e o s) := by
  have k := h.updEngine e Engine.finish fun q => Engine.compareOk_congr (by simp) q
  unfold reportOutcome; dsimp only
  split
  · exact originProbeEnds_keeps _ (countProbeFailure_keeps _ k)
  · exact carriageProbeEnds_keeps _ _ (countProbeFailure_keeps _ k)
  · exact endTest_keeps _ k
  · exact k

@[simp] theorem noteLargest_keeps (e : EngineId) (n : Nat) (h : Keeps a s) : Keeps a (noteLargest e n s) :=
  Keeps.ite' (h.withSvc _) h

@[simp] theorem noteLargest_engines (e : EngineId) (n : Nat) (s : State) : (noteLargest e n s).engines = s.engines := by
  unfold noteLargest; split <;> rfl

/-- R136: what bit clocks do to the engines: one compare moves, in CHECK only. -/
theorem countClocks_engines (e : EngineId) (es : List ClockEdge) (s : State) :
    (countClocks e es s).engines = s.engines.set e ((s.engines.get e).clocked es) := by
  unfold countClocks; dsimp only
  split
  · simp
  · next h => rw [show (s.engines.get e).clocked es = s.engines.get e from Engine.clocked_of_not_check es h]; simp

@[simp] theorem countClocks_keeps (e : EngineId) (es : List ClockEdge) (h : Keeps a s) : Keeps a (countClocks e es s) :=
  Keeps.ite' (Keeps.updEngine (noteLargest_keeps _ _ h) _ _ fun q => Engine.clocked_compareOk _ q) h

@[simp] theorem wrapCompare_keeps (e : EngineId) (n : Nat) (h : Keeps a s) : Keeps a (wrapCompare e n s) :=
  Keeps.ite' (h.updEngine _ _ fun _ => by unfold Engine.compareOk; simp) h

@[simp] theorem completeOutcome_keeps (e : EngineId) (h : Keeps a s) : Keeps a (completeOutcome e s) := by
  unfold completeOutcome; split
  · exact endTest_keeps _ h
  · exact reportOutcome_keeps _ _ h

@[simp] theorem wordArrives_keeps (i : WordIn) (h : Keeps a s) : Keeps a (wordArrives i s) := by
  have c := countClocks_keeps i.engine i.edges h
  have k := wrapCompare_keeps i.engine ((countClocks i.engine i.edges s).engine i.engine).compared
    (c.updEngine i.engine
      (fun _ => (((countClocks i.engine i.edges s).engine i.engine).word i
        (wordGoal i.engine (countClocks i.engine i.edges s)) (countClocks i.engine i.edges s).now).1)
      fun q => Engine.word_compareOk _ _ _ q)
  unfold wordArrives; dsimp only
  split
  · exact k
  · exact reportOutcome_keeps _ _ k
  · exact reportOutcome_keeps _ _ k
  · exact completeOutcome_keeps _ k

@[simp] theorem lineArrives_keeps (w : LineIn) (h : Keeps a s) : Keeps a (lineArrives w s) := by
  unfold lineArrives; split
  · exact wordArrives_keeps _ h
  · exact Keeps.ite' (countClocks_keeps _ _ h) h

@[simp] theorem probeTimesOut_keeps (e : EngineId) (h : Keeps a s) : Keeps a (probeTimesOut e s) :=
  Keeps.ite' (reportOutcome_keeps _ _ (h.updEngine _ _ fun q => q)) h

@[simp] theorem generationEnds_keeps (h : Keeps a s) : Keeps a (generationEnds s) := by
  unfold generationEnds; split
  · exact Keeps.ite' (endTest_keeps _ h) h
  · exact h

@[simp] theorem testTimesOut_keeps (h : Keeps a s) : Keeps a (testTimesOut s) := by
  unfold testTimesOut; split
  · exact Keeps.ite' (endTest_keeps _ h) h
  · exact h

@[simp] theorem reportLaneLoss_keeps (o : Owner) (h : Keeps a s) : Keeps a (reportLaneLoss o s) := by
  unfold reportLaneLoss; split
  · exact originLaneLoss_keeps h
  · exact carriageLaneLoss_keeps _ h
  · exact h

@[simp] theorem loseLane_keeps (l : Lane) (h : Keeps a s) : Keeps a (loseLane l s) := by
  unfold loseLane; dsimp only; split
  · exact Keeps.ite' (reportLaneLoss_keeps _ (endSupervision_keeps _ (h.count _))) h
  · exact h

/-! ## Service -/

theorem serviceFrame_keeps (n : Nat) (f : Rx) {g : State → State} (hg : ∀ x, Keeps a x → Keeps a (g x))
    (h : Keeps a s) : Keeps a (serviceFrame n f g s) := Keeps.ite' h (Keeps.ite' h.dropFrame (hg _ h))

@[simp] theorem statusQuery_keeps (f : Rx) (h : Keeps a s) : Keeps a (statusQuery f s) :=
  Keeps.ite' ((handOver_keeps _ h).count _) (handOver_keeps _ h)

@[simp] theorem refuseTest_keeps (f : Rx) (h : Keeps a s) : Keeps a (refuseTest f s) := handOver_keeps _ h

/-- R180: what the lane of an accepted test order is. -/
theorem testLane_some {p : List Octet} {l : Lane} (h : testLane p s = some l) :
    s.own ≠ 0 ∧ s.recordActive = false ∧ testFieldsOk p = true ∧ laneOfNumber (octAt p 1) = some l ∧
      (s.lane l).freeForChoosing = true := by
  unfold testLane at h
  split at h
  · cases h
  · rename_i c
    simp only [not_or, Bool.not_eq_true, Bool.not_eq_false] at c
    split at h
    · rename_i x e
      split at h <;> cases h
      exact ⟨c.2.1, c.1, c.2.2, e, ‹_›⟩
    · cases h

@[simp] theorem orderGenerate_keeps (f : Rx) (h : Keeps a s) : Keeps a (orderGenerate f s) := by
  unfold orderGenerate; split
  · rename_i q
    exact startEngine_keeps _ _ _ _ _ (takeLane_keeps _ _ (testLane_some q).1 (h.withSvc _))
  · exact refuseTest_keeps f h

@[simp] theorem orderCheck_keeps (f : Rx) (h : Keeps a s) : Keeps a (orderCheck f s) := by
  unfold orderCheck; split
  · rename_i q
    refine startEngine_keeps _ _ _ _ _ (Keeps.updLane (h.withSvc _) _ _ fun _ => ?_)
    exact fun _ => ⟨rfl, (testLane_some q).1⟩
  · exact refuseTest_keeps f h

@[simp] theorem orderStop_keeps (f : Rx) (h : Keeps a s) : Keeps a (orderStop f s) :=
  Keeps.ite' (endTest_keeps _ h) (handOver_keeps _ h)

@[simp] theorem testOrder_keeps (f : Rx) (h : Keeps a s) : Keeps a (testOrder f s) := by
  unfold testOrder; split
  · exact orderGenerate_keeps f h
  · exact orderCheck_keeps f h
  · exact orderStop_keeps f h
  · exact refuseTest_keeps f h

@[simp] theorem restartCarriage_keeps (m : Mod) (h : Keeps a s) : Keeps a (restartCarriage m s) := by
  unfold restartCarriage; split
  · exact h
  · exact removeCarriage_keeps m (Keeps.ite' (handOver_keeps _ h) h)

@[simp] theorem restartGround_keeps (h : Keeps a s) : Keeps a (restartGround s) :=
  Keeps.withClaims (restartLanes_keeps ((emptyBand_keeps h).updCsw fun _ => Switch.reset)) fun _ => by simp

@[simp] theorem restartTest_keeps (h : Keeps a s) : Keeps a (restartTest s) := by
  unfold restartTest; split
  · exact closeTest_keeps _ _ h
  · exact h

@[simp] theorem restartBlocks_keeps (h : Keeps a s) : Keeps a (restartBlocks s) := by
  have k := restartTest_keeps (restartCarriage_keeps .b (restartCarriage_keeps .a (restartOrigin_keeps (restartGround_keeps h))))
  exact startSchedule_keeps (restartLamp_keeps (k.withOffers fun _ => ⟨by simp, by simp, by simp⟩))

@[simp] theorem restartOrder_keeps (f : Rx) (h : Keeps a s) : Keeps a (restartOrder f s) := by
  unfold restartOrder
  refine Keeps.ite' (handOver_keeps _ (h.withSvc _)) ?_
  have k : Keeps a (answerGeneral f.sender (setRestartOutcome .done (restartBlocks s))) :=
    handOver_keeps _ ((restartBlocks_keeps h).withSvc _)
  unfold carryOutRestart; dsimp only; split
  · exact handOver_keeps _ k
  · exact k

/-! ## Reception -/

@[simp] theorem duplicateHeard_keeps (h : Keeps a s) : Keeps a (duplicateHeard s) :=
  Keeps.ite' h (formWanted_keeps (h.updBand _ (fun q => Band.fits_congr (b := s.band) rfl rfl rfl (fun _ => id) q) fun _ => rfl))

@[simp] theorem deliverRelease_keeps (f : Rx) (h : Keeps a s) : Keeps a (deliverRelease f s) := by
  unfold deliverRelease
  refine Keeps.ite' h.dropFrame ?_
  split <;> first
    | exact originRelease_keeps _ _ h
    | exact arbiterRelease_keeps _ h
    | exact arbiterRelease_keeps _ (originRelease_keeps _ _ h)

theorem deliver_keeps (k : Nat) (f : Rx) (r : f.sender.toNat ≤ 31) (q : f.sender.toNat ≠ s.own) (h : Keeps a s) :
    Keeps a (deliver k f s) := by
  unfold deliver
  split <;> first
    | assumption
    | exact originFrame_keeps _ _ (fun _ => originGrant_keeps _) h
    | exact originFrame_keeps _ _ (fun _ => originWait_keeps _) h
    | exact originFrame_keeps _ _ (fun _ => originRefuse_keeps _) h
    | exact originFrame_keeps _ _ (fun _ => originProgress_keeps _) h
    | exact deliverRelease_keeps _ h
    | exact arbiterConnect_keeps _ h
    | exact arbiterClaim_keeps _ h
    | exact receiveOffer_keeps _ r q h
    | exact serviceFrame_keeps _ _ (fun _ => statusQuery_keeps _) h
    | exact serviceFrame_keeps _ _ (fun _ => testOrder_keeps _) h
    | exact serviceFrame_keeps _ _ (fun _ => restartOrder_keeps _) h

/-- R170: when each verdict is given. -/
theorem rxVerdict_delivered {own : Station} {k : Nat} {f : Rx} (h : rxVerdict own k f = .delivered) :
    f.sender.toNat ≤ 31 ∧ (own = 0 ∨ f.sender.toNat ≠ own) ∧ (f.target = 0 ∨ f.target.toNat = own) ∧
      (kindOf k).isSome = true := by
  unfold rxVerdict at h
  split at h
  · cases h
  · split at h
    · cases h
    · split at h
      · cases h
      · split at h
        · cases h
        · rename_i h1 h2 h3 h4
          refine ⟨by omega, ?_, ?_, ?_⟩
          · by_cases z : own = 0
            · exact .inl z
            · exact .inr fun e => h1 ⟨z, e⟩
          · by_cases z : f.target = 0
            · exact .inl z
            · by_cases y : f.target.toNat = own
              · exact .inr y
              · exact absurd ⟨z, y⟩ h2
          · cases q : kindOf k <;> simp_all

/-- R163, R170: a frame addressed to the station, of a kind it knows, is delivered, and the receiver hunts. -/
theorem receive_hears {f : Rx} (k : Nat) (h : s.hears f) (q : (kindOf k).isSome = true) :
    receive k f s = deliver k f (hunt s) := by
  obtain ⟨h1, h2, h3, h4, h5, h6, h7⟩ := h
  have v : rxVerdict s.own k f = .delivered := by
    unfold rxVerdict
    rw [if_neg (fun c => h5 c.2), if_neg (fun c => c.2 h2), if_neg (by omega), if_neg]
    cases e : kindOf k <;> simp_all
  unfold receive; rw [readFrame_receiving _ h6 h7]; unfold takeFrame; rw [hunt_own, v]

/-- R163, R170: an OFFER of a peer is delivered, and the receiver hunts. -/
theorem receive_hearsOffer {f : Rx} (h : s.hearsOffer f) : receive 16 f s = receiveOffer f (hunt s) := by
  obtain ⟨h1, h2, h4, h5, h6, h7⟩ := h
  have v : rxVerdict s.own 16 f = .delivered := by
    unfold rxVerdict
    rw [if_neg (fun c => h5 c.2), if_neg (fun c => c.1 h1), if_neg (by omega), if_neg (by decide)]
  unfold receive; rw [readFrame_receiving _ h6 h7]; unfold takeFrame; rw [hunt_own, v]; rfl

theorem receiveOffer_own0 (f : Rx) (k : f.sender.toNat = 0) : receiveOffer f s = s := by
  unfold receiveOffer; rw [if_pos]; exact BitVec.eq_of_toNat_eq k

theorem takeFrame_keeps (k : Nat) (f : Rx) (s : State) (h : Keeps a s) : Keeps a (takeFrame k f s) := by
  unfold takeFrame
  split
  · exact duplicateHeard_keeps h
  · exact h
  · exact h.dropFrame
  · rename_i v
    obtain ⟨v1, v2, -, -⟩ := rxVerdict_delivered v
    by_cases z : f.sender.toNat = s.own
    · rcases v2 with v2 | v2
      · rw [v2] at z
        have e : ∀ {x y : State}, Keeps a x → x = y → Keeps a y := fun p q => q ▸ p
        unfold deliver
        split <;> first
          | assumption
          | exact originFrame_keeps _ _ (fun _ => originGrant_keeps _) h
          | exact originFrame_keeps _ _ (fun _ => originWait_keeps _) h
          | exact originFrame_keeps _ _ (fun _ => originRefuse_keeps _) h
          | exact originFrame_keeps _ _ (fun _ => originProgress_keeps _) h
          | exact deliverRelease_keeps _ h
          | exact arbiterConnect_keeps _ h
          | exact arbiterClaim_keeps _ h
          | exact e h (receiveOffer_own0 f z).symm
          | exact serviceFrame_keeps _ _ (fun _ => statusQuery_keeps _) h
          | exact serviceFrame_keeps _ _ (fun _ => testOrder_keeps _) h
          | exact serviceFrame_keeps _ _ (fun _ => restartOrder_keeps _) h
      · exact absurd z v2
    · exact deliver_keeps k f v1 z h

@[simp] theorem receive_keeps (k : Nat) (f : Rx) (h : Keeps a s) : Keeps a (receive k f s) :=
  readFrame_keeps (takeFrame_keeps k f) h

/-! ## Operations of single commands -/

@[simp] theorem sampleButton_keeps (b : Bool) (h : Keeps a s) : Keeps a (sampleButton b s) :=
  Keeps.ite' (Keeps.ite' (endTest_keeps _ (originPress_keeps (h.withButton _))) (h.withButton _)) h

@[simp] theorem periodEnds_keeps (h : Keeps a s) : Keeps a (periodEnds s) := by
  unfold periodEnds
  exact Keeps.ite' (Keeps.withLamp (Keeps.ite' (originTick_keeps (h.withLamp _)) (h.withLamp _)) _) h

@[simp] theorem supplyTaken_keeps (mv : Nat) (h : Keeps a s) : Keeps a (supplyTaken mv s) :=
  Keeps.ite' (Keeps.ite' (refreshCheck_keeps _ (refreshCheck_keeps _ (sampleSupply_keeps _ h))) (sampleSupply_keeps _ h)) h

/-! ## The builder at the end of an event -/

/-- R4, R10: an event that changes neither the offering flag nor an input of the comparison leaves the schedule. -/
theorem offerSync_same {s0 : State} (h1 : s.offeringFlag = s0.offeringFlag) (h2 : offerInputsChanged s0 s = false) :
    offerSync s0 s = s := by
  unfold offerSync; rw [h1, h2]; simp

/-- The same, by the fields the builder reads. -/
theorem offerSync_of_fields {s0 : State} (h1 : s.straps = s0.straps) (h2 : s.supply = s0.supply)
    (h3 : s.band.dupFault = s0.band.dupFault) (h4 : s.modules.a.offerInput = s0.modules.a.offerInput)
    (h5 : s.modules.b.offerInput = s0.modules.b.offerInput) (h6 : s.claims.length = s0.claims.length) :
    offerSync s0 s = s := by
  refine offerSync_same ?_ ?_
  · unfold State.offeringFlag; rw [h1, h2, h3]
  · unfold offerInputsChanged; rw [h2, h4, h5, h6]; simp

end Sys2Proof.Machine
end

