-- ==== Sys2Proof/Laws/Start.lean ====
section
/-! SUPPORT. The full reset: the state it leaves, and the state after it (R174, R175). -/

namespace Sys2Proof.Machine

/-- `State.reset` is the end of a full reset at time 0 with every strap pin 0 (log 4). -/
theorem afterFullReset_zero : afterFullReset Straps.zero 0 = State.reset := by decide

/-- A schedule is the only thing `startSchedule` changes. -/
theorem startSchedule_eq (s : State) : startSchedule s = { s with sched := (startSchedule s).sched } := rfl

/-- Only a full reset's end gives a module position power. -/
theorem duringFullReset_power (t : Time) (c : ResetCause) (s : State) (m : Mod) :
    ((duringFullReset t c s).modules.get m).power = false := by
  cases m <;> rfl

/-- While a full reset lasts no lane is owned. -/
theorem duringFullReset_owner (t : Time) (c : ResetCause) (s : State) (l : Lane) :
    ((duringFullReset t c s).lanes.get l).owner = none := by
  cases l <;> rfl

end Sys2Proof.Machine
end

