-- ==== Sys2Proof/WellFormed.lean ====
section
/-! DEFINITION. Which commands spell an event of their own row: the content the table's row names. `exec` is total and
gives an ill-formed command the meaning that the octets or values it carries have (log 7). -/

namespace Sys2Proof

/-- The value of octet `i` of a payload, 0 when the payload is shorter. -/
def Rx.at (f : Rx) (i : Nat) : Nat := (f.payload.getD i 0).toNat

/-- A payload of the stated length whose octet `i` satisfies `p`. -/
def Rx.shaped (f : Rx) (len i : Nat) (p : Nat → Bool) : Bool :=
  f.payload.length == len && p (f.at i)

/-- An OFFER that announces: 14 octets, offering 1, supply 0 or 1 (01, 1.3; R11). -/
def Rx.announces (f : Rx) : Bool :=
  f.shaped 14 0 fun o => o % 2 == 1 && decide (o / 2 % 4 < 2)

/-- An OFFER that withdraws: 14 octets, offering 0, or a supply that is neither NORMAL nor RESERVE (R11, R13). -/
def Rx.withdraws (f : Rx) : Bool :=
  f.shaped 14 0 fun o => o % 2 == 0 || decide (2 ≤ o / 2 % 4)

/-- The time of the last octet of a link. -/
def lastHeard (octets : List LinkOctet) : Time := (octets.getLast?.map LinkOctet.heardAt).getD 0

/-- The octets of a link came one after another, the last not after `t`. -/
def linkTimesOk (t : Time) (octets : List LinkOctet) : Bool :=
  decide ((octets.map LinkOctet.heardAt).Pairwise (· ≤ ·) ∧ lastHeard octets ≤ t)

/-- A network code in range (00 "Value ranges"). -/
def codeOk (c : Nat) : Bool := decide (c ≤ 999999)

/-- The gap before the word is at most 40 ms, 5,120 bit times: a longer one has returned the checker to SETTLE (R134). -/
def WordIn.ok (w : WordIn) : Bool := decide (w.gapBits ≤ 128 * 40)

/-- A whole word has a gap in range; bit clocks come in any number and order (log 8). -/
def LineIn.ok : LineIn → Bool
  | .word i => i.ok
  | .clocks _ _ => true

/-- The commands whose operands spell an event of their row. -/
def Instr.wf : Instr → Bool
  | .fullReset _ => true
  | .fullResetEnd _ _ => true
  | .offerFirstDue _ => true
  | .offerPeriodicDue _ => true
  | .changeDeadline _ => true
  | .offerSpacingEnd _ => true
  | .offer _ f => f.announces
  | .offerWithdrawal _ f => f.withdraws
  | .offerEntryExpiry _ st => decide (1 ≤ st ∧ st ≤ 31)
  | .buttonSample _ _ => true
  | .buttonPress _ => true
  | .buttonRelease _ => true
  | .retryTime _ => true
  | .answerDeadline _ => true
  | .silenceDeadline _ => true
  | .regrantWait _ => true
  | .searchDeadline _ => true
  | .failedUntil _ => true
  | .grant _ f => f.shaped 4 0 fun _ => true
  | .wait _ f => f.shaped 2 0 fun _ => true
  | .refuse _ f => f.shaped 2 0 fun _ => true
  | .progress _ f => f.shaped 5 1 fun o => decide (o ≤ 3)
  | .releaseFromUplink _ f => f.shaped 2 1 fun o => decide (o ≤ 4)
  | .releaseFromOrigin _ f => f.shaped 2 1 fun o => o == 5 || o == 6
  | .releaseRestart _ f => f.shaped 2 1 fun o => decide (7 ≤ o)
  | .claimNew _ f => f.shaped 3 1 fun o => o == 0
  | .claimRejoin _ f => f.shaped 3 1 fun o => o == 1
  | .waitRefresh _ st _ => decide (1 ≤ st ∧ st ≤ 31)
  | .queueEntryExpiry _ st _ => decide (st ≤ 31)
  | .connect _ f => f.shaped 3 0 fun _ => true
  | .connectDeadline _ _ => true
  | .ringDeadline _ _ => true
  | .rejoinDeadline _ _ => true
  | .linkMessageDiscarded t _ hunted message =>
    linkTimesOk t (hunted ++ message) && hunted.all (fun o => o.octet != 170) &&
      Machine.linkEvents .hunting 0 (lastHeard message) message == [.discarded]
  | .linkMessageTimeout t _ octets =>
    linkTimesOk t octets && Machine.linkEvents .hunting 0 (lastHeard octets) octets == [] &&
      Machine.linkEvents .hunting 0 t octets == [.discarded]
  | .ready _ _ => true
  | .scanList _ _ entries => decide (entries.length ≤ 50)
  | .selected _ _ _ _ => true
  | .accepted _ _ => true
  | .rejected _ _ => true
  | .ringing _ _ => true
  | .answered _ _ => true
  | .ended _ _ _ => true
  | .aborted _ _ => true
  | .quality _ _ _ => true
  | .fault _ _ => true
  | .scanTimeout _ _ => true
  | .selectTimeout _ _ => true
  | .dialTimeout _ _ => true
  | .hangupTimeout _ _ => true
  | .abortTimeout _ _ => true
  | .powerOnTime _ _ => true
  | .poweringDeadline _ _ => true
  | .rescanDue _ _ => true
  | .refreshDue _ _ => true
  | .progressDeadline _ _ => true
  | .penaltyEnd _ _ code => codeOk code
  | .carrierHeard _ _ _ => true
  | .carrierNotHeard _ _ _ => true
  | .laneFree _ _ => true
  | .quarantineEnd _ _ => true
  | .generatorDone _ _ => true
  | .settleEnd _ _ => true
  | .probeWordReceived _ w => w.ok
  | .steadyReached _ w => w.ok
  | .nosync _ w => w.ok
  | .stuck _ w => w.ok
  | .checkerGapReset _ _ => true
  | .checkComplete _ w => w.ok
  | .probeTimeout _ _ => true
  | .laneLoss _ _ => true
  | .holdUntilEnd _ _ => true
  | .promptPlayEnd _ _ => true
  | .promptGapEnd _ _ => true
  | .identToneEnd _ => true
  | .identGapEnd _ => true
  | .lampOnTimeEnd _ => true
  | .lampPeriodEnd _ => true
  | .periodTick _ => true
  | .supplySample _ _ => true
  | .supplyStateChange _ _ => true
  | .bandActivity _ => true
  | .bandQuiet _ => true
  | .sendStart _ => true
  | .frameSent _ => true
  | .collision _ => true
  | .frameDiscarded _ e =>
    match e with
    | .lengthAbove40 len => decide (40 < len.toNat)
    | .badCheck octets => decide (6 ≤ octets.length)
    | .badStopBit => true
    | .truncated => true
  | .duplicateNumberFrame _ => true
  | .unknownKindFrame _ kind f =>
    decide (31 < f.sender.toNat) ||
      !([1, 2, 3, 4, 5, 6, 7, 16, 32, 33, 34, 35, 36].contains kind.toNat)
  | .reportFrameHeard _ _ => true
  | .statusQueryGeneral _ f => f.shaped 2 0 fun o => o == 0 || decide (3 < o)
  | .statusQueryCounters _ f => f.shaped 2 0 fun o => o == 1
  | .statusQueryModules _ f => f.shaped 2 0 fun o => o == 2
  | .statusQueryLastTest _ f => f.shaped 2 0 fun o => o == 3
  | .testOrderGenerate _ f => f.shaped 7 0 fun o => o == 0
  | .testOrderCheck _ f => f.shaped 7 0 fun o => o == 1
  | .testOrderStop _ f => f.shaped 7 0 fun o => o == 2
  | .testGenerationEnd _ => true
  | .testCheckComplete _ w => w.ok && w.engine == .e0
  | .testTimeout _ => true
  | .restart _ f => f.shaped 1 0 fun _ => true
  | .avoidEntryLeave _ st => decide (st ≤ 31)

end Sys2Proof
end

