-- ==== Sys2Proof/Tests/Slice0.lean ====
section
/-! SUPPORT. Tests on concrete states, and for each statement with hypotheses a state and operands that meet them, clause by
clause. Expected values are the guide's worked examples, or are worked out by hand from the rule named. -/

namespace Sys2Proof.Tests

open Sys2Proof Sys2Proof.Machine

/-! ## Helpers -/

/-- The state a command leaves. -/
def after (c : Instr) (s : State) : State :=
  match exec c s with
  | .next u => u
  | .fault _ => s
  | .refused _ => s

def pins (n : BitVec 5) : Straps :=
  { station := n, sectionCode := 47, modA := true, modB := true, offer := true, supplySet := false }

def freeLane : LaneEntry := { LaneEntry.reset 0 with occupancy := .free }

/-- A station 1,000 ms after its full reset, every lane FREE, its offer schedule ACTIVE, its receiver in a frame. -/
def idle (n : BitVec 5) : State :=
  { afterFullReset (pins n) 0 with
    now := ms 1000, band := { Band.reset 0 with receiving := true }, lanes := PerLane.all freeLane,
    sched := { OfferSchedule.cleared with phase := .active, periodicDue := some (ms 2000), lastHandover := some 0 } }

def rx (sender target : Nat) (p : List Octet) : Rx := { sender := oct sender, target := oct target, payload := p }

def net (code q : Nat) : Net := { code := code, quality := q, barred := false, penalisedUntil := none }

/-- A module READY on 214,037 at quality 52. -/
def readyMod : Module :=
  { Module.absent with
    fitted := true, state := .ready, power := true, selected := some 214037, lastScan := some 0,
    table := [net 214037 52, net 307110 47] }

def withMod (s : State) (m : Mod) (r : Module) : State := { s with modules := s.modules.set m r }

/-- Station 9, module A as given. -/
def mod9 (r : Module) : State := withMod (idle 9) .a r

def flying (k : OrderKind) (code : Code) (r : Module) : Module :=
  { r with inFlight := some { kind := k, deadline := ms 1000, code := code } }

def peer2 (l : Option Lane) : Option Path := some { kind := .peer, station := 2, module := some .a, lane := l }

/-- Station 9 with a call of tag 41 on station 2. -/
def origin9 (st : OriginState) (l : Option Lane) : State :=
  { idle 9 with coc := { Origin.reset with tagCounter := 41, tag := 41, state := st, path := peer2 l } }

theorem origin9_onPeer (st : OriginState) : (origin9 st none).coc.onPeer 2 := ⟨some .a, rfl⟩

theorem origin9_onLane (st : OriginState) : (origin9 st (some .l3)).coc.onLane 2 .l3 := ⟨some .a, rfl⟩

/-! ## Well-formedness: an ill-formed term for each check -/

theorem test_wf_announces : (Instr.offer 0 (rx 2 0 (1 :: List.replicate 13 0))).wf = true ∧
    (Instr.offer 0 (rx 2 0 (0 :: List.replicate 13 0))).wf = false ∧ (Instr.offer 0 (rx 2 0 [1])).wf = false := by decide

theorem test_wf_withdraws : (Instr.offerWithdrawal 0 (rx 2 0 (5 :: List.replicate 13 0))).wf = true ∧
    (Instr.offerWithdrawal 0 (rx 2 0 (3 :: List.replicate 13 0))).wf = false := by decide

theorem test_wf_stations : (Instr.offerEntryExpiry 0 0).wf = false ∧ (Instr.waitRefresh 0 32 1).wf = false ∧
    (Instr.queueEntryExpiry 0 32 1).wf = false ∧ (Instr.avoidEntryLeave 0 32).wf = false := by decide

theorem test_wf_call_frames : (Instr.grant 0 (rx 2 9 [41, 2, 0])).wf = false ∧ (Instr.wait 0 (rx 2 9 [41])).wf = false ∧
    (Instr.refuse 0 (rx 2 9 [41, 2, 0])).wf = false ∧ (Instr.progress 0 (rx 2 9 [41, 4, 0, 0, 0])).wf = false ∧
    (Instr.releaseFromUplink 0 (rx 2 9 [41, 5])).wf = false ∧ (Instr.releaseFromOrigin 0 (rx 2 9 [41, 4])).wf = false ∧
    (Instr.releaseRestart 0 (rx 2 9 [41, 6])).wf = false ∧ (Instr.claimNew 0 (rx 9 2 [41, 1, 23])).wf = false ∧
    (Instr.claimRejoin 0 (rx 9 2 [41, 0, 23])).wf = false ∧ (Instr.connect 0 (rx 9 2 [41, 2])).wf = false := by decide

/-- Octets of a module link, all heard at the time `t`. -/
def heard (t : Time) (octets : List Octet) : List LinkOctet := octets.map fun o => ⟨t, o⟩

theorem test_wf_links : (Instr.linkMessageDiscarded 5 .a (heard 4 [3]) (heard 5 [170, 16, 1, 0])).wf = true ∧
    (Instr.linkMessageDiscarded 5 .a [] (heard 5 [170, 16, 0])).wf = false ∧
    (Instr.linkMessageDiscarded 5 .a (heard 4 [170]) (heard 5 [170, 16, 1, 0])).wf = false ∧
    (Instr.linkMessageDiscarded 4 .a [] (heard 5 [170, 16, 1, 0])).wf = false ∧
    (Instr.linkMessageTimeout (ms 20) .a (heard 0 [170, 16])).wf = true ∧
    (Instr.linkMessageTimeout (ms 20 - 1) .a (heard 0 [170, 16])).wf = false ∧
    (Instr.linkMessageTimeout (ms 20) .a (heard 0 [16])).wf = false ∧
    (Instr.scanList 0 .a (List.replicate 51 ⟨0, 0, 0⟩)).wf = false ∧ (Instr.penaltyEnd 0 .a 1000000).wf = false := by decide

theorem test_wf_words : (Instr.probeWordReceived 0 (.word ⟨.e0, 0, 5121, []⟩)).wf = false ∧
    (Instr.steadyReached 0 ⟨.e0, 0, 5121, []⟩).wf = false ∧
    (Instr.nosync 0 ⟨.e0, 0, 5121, []⟩).wf = false ∧ (Instr.stuck 0 ⟨.e0, 0, 5121, []⟩).wf = false ∧
    (Instr.checkComplete 0 ⟨.e0, 0, 5121, []⟩).wf = false ∧
    (Instr.testCheckComplete 0 ⟨.e1, 0, 0, []⟩).wf = false := by decide

theorem test_wf_band : (Instr.frameDiscarded 0 (.lengthAbove40 40)).wf = false ∧
    (Instr.frameDiscarded 0 (.badCheck [1, 2, 3])).wf = false ∧ (Instr.unknownKindFrame 0 7 (rx 2 9 [])).wf = false := by
  decide

theorem test_wf_service : (Instr.statusQueryGeneral 0 (rx 2 9 [1, 0])).wf = false ∧
    (Instr.statusQueryCounters 0 (rx 2 9 [0, 0])).wf = false ∧ (Instr.statusQueryModules 0 (rx 2 9 [0, 0])).wf = false ∧
    (Instr.statusQueryLastTest 0 (rx 2 9 [0, 0])).wf = false ∧ (Instr.testOrderGenerate 0 (rx 2 9 [0, 2])).wf = false ∧
    (Instr.testOrderCheck 0 (rx 2 9 [0, 2, 3, 6, 5, 3, 3])).wf = false ∧
    (Instr.testOrderStop 0 (rx 2 9 [1, 2, 3, 6, 5, 3, 3])).wf = false ∧ (Instr.restart 0 (rx 2 9 [])).wf = false := by
  decide

/-! ## The queue, the full reset, what every command keeps -/

theorem witness_stepRunsFrontCommand : State.reset.pending = [] ∧
    step { State.reset with pending := [.bandActivity 7] } = exec (.bandActivity 7) State.reset := ⟨rfl, rfl⟩

theorem witness_everyCommandAnswersNext :
    (∀ e, (Instr.buttonPress 5) ≠ .fullReset e) ∧ (∀ t p, (Instr.buttonPress 5) ≠ .fullResetEnd t p) ∧
      ({ idle 9 with band := { (idle 9).band with dupFault := true } } : State).band.dupFault = true :=
  ⟨fun _ h => Instr.noConfusion h, fun _ _ h => Instr.noConfusion h, rfl⟩

/-- Station 9 while a full reset by the pin lasts. -/
def held : State := after (.fullReset ⟨ms 2000, .pin⟩) (idle 9)

/-- R175: a power-on at 2,000 ms holds the reset until 2,050 ms; a reset by the pin in it leaves that time as it is, and another
power-on begins it again (log 5). -/
theorem witness_fullResetEndsEverything :
    let on := after (.fullReset ⟨ms 2000, .powerOn⟩) (idle 9)
    on.powerOnHold = some (ms 2050) ∧ held.powerOnHold = none ∧
    (after (.fullReset ⟨ms 2010, .pin⟩) on).powerOnHold = some (ms 2050) ∧
    (after (.fullReset ⟨ms 2010, .powerOn⟩) on).powerOnHold = some (ms 2060) ∧
    (after (.fullResetEnd (ms 2050 - 1) (pins 9)) on).inReset = true ∧
    (after (.fullResetEnd (ms 2050) (pins 9)) on).inReset = false := by decide

theorem witness_nothingHappensDuringFullReset : held.inReset = true ∧ (∀ e, (Instr.buttonPress 5) ≠ .fullReset e) ∧
    (∀ t p, (Instr.buttonPress 5) ≠ .fullResetEnd t p) :=
  ⟨rfl, fun _ h => Instr.noConfusion h, fun _ _ h => Instr.noConfusion h⟩

/-- 01, worked example, and 11, 11.3: station 14 starts STARTING, its first OFFER due at 780 ms; station 9 without modules is
SILENT; module A is POWERING with 15,000 ms. -/
theorem witness_fullResetEndStartsTheStation : held.inReset = true ∧ held.powerOnHold = none ∧
    (let u := after (.fullResetEnd 0 (pins 14)) { held with now := 0 }
     u.sched.phase = .starting ∧ u.sched.firstDue = some (ms 780) ∧ (u.mod .a).poweringDeadline = some (ms 15000) ∧
       u.lanes.l1.quietSince = some 0 ∧ u.engines.e0.checker = .idle) ∧
    (after (.fullResetEnd 0 { pins 9 with modA := false, modB := false }) held).sched.phase = .silent ∧
    (after (.fullResetEnd 0 (pins 0)) held).lamp.running = .fault := by decide

theorem witness_everyStepKeepsSoundness : ({ State.reset with pending := [.bandActivity 5] } : State).Sound := by
  refine ⟨by unfold Band.fits; decide, by decide, by unfold avoidOk; decide, ?_, ?_, ?_, ?_⟩
  · exact ⟨by decide, by decide, by intro e h; cases h⟩
  · intro m; cases m <;> exact ⟨by decide, by decide, by decide⟩
  · intro e; cases e <;> exact ⟨by decide, by decide⟩
  · intro l h; cases l <;> cases h

/-! ## Encodings -/

set_option maxRecDepth 8000 in
/-- The check of CLAIM NEW, tag 41, lanes 1, 2, 3 and 5, from station 9 to station 2, worked out from R162 apart from the model. -/
theorem test_frame_check : frameOctets 9 (claimFrame 2 41 .new 0b010111) = [7, 9, 2, 3, 41, 0, 23, 120, 41] := by decide

theorem witness_sentFramesPassTheirCheck : (List.replicate 40 (0 : Octet)).length ≤ 40 := by decide

/-- A content at the largest value of each field. -/
def fullContent : Content :=
  { offering := true, supply := .reserve, depth := 6, b := none,
    a := some { state := .fault, best := some 999999, quality := 63, usable := 8 } }

theorem witness_offerPayloadReadsBack : fullContent.depth ≤ 6 ∧ (∀ x, fullContent.a = some x → x.inRange) ∧
    (∀ x, fullContent.b = some x → x.inRange) ∧
    (offerFrame fullContent).payload = [3, 6, 23, 15, 66, 63, 63, 8, 0, 0, 0, 0, 0, 0] ∧
    ({ fullContent with supply := .low }).supply = .low := by
  refine ⟨by decide, ?_, (by intro x h; cases h), by decide, rfl⟩
  intro x h; cases h; exact ⟨(by intro c h; cases h; decide), by decide, by decide⟩

/-- R130: the seeds of station 9 with tag 41 and of station 16 with tag 12; a seed that comes to 0 is 1. -/
theorem test_seeds : seedOf 9 41 = 2345 ∧ seedOf 16 12 = 4108 ∧ seedOf 127 255 = 1 := by decide

theorem witness_patternIsFollowed : seedOf 9 41 ≠ 0 := by decide

/-! ## Ranking and lane choice -/

def summary (st : SummaryState) (q u : Nat) : Option Summary := some { state := st, best := none, quality := q, usable := u }

/-- The Offer Table of station 9 at 100,000 ms, with station 5 avoided since 84,000 (01 and 02, worked examples). -/
def station9Ranks : State :=
  { idle 9 with
    now := ms 100000, straps := { pins 9 with modA := false, modB := false },
    modules := { a := Module.absent, b := Module.absent },
    coc := { Origin.reset with avoid := [⟨5, ms 84000⟩] },
    offerTable :=
      [⟨2, ms 96600, .normal, 0, summary .free 41 3, summary .busy 50 1⟩, ⟨5, ms 98100, .normal, 1, summary .free 60 1, none⟩,
       ⟨14, ms 99200, .reserve, 2, summary .busy 58 2, summary .busy 55 2⟩, ⟨17, ms 90900, .normal, 0, summary .free 30 1, none⟩] }

theorem test_ranking_example :
    (candidateList station9Ranks).map (fun c => (c.station, c.score)) = [(2, 476), (14, 426), (5, 408), (17, 216)] := by
  decide

theorem witness_rankingOutcomeIsBest : (ranking station9Ranks).map Candidate.station = some 2 ∧
    candidates State.reset = [] := by decide

/-- The inputs of 02's worked example; station 0, an age of 10,000 ms, and a full queue without a FREE module give no record. -/
theorem witness_rankingOutcomeIsBest_candidates :
    let s := station9Ranks
    let full : OfferEntry := ⟨2, ms 96600, .normal, 6, summary .busy 50 1, summary .free 41 0⟩
    let loc := { withMod s .a { readyMod with link := true } with offerTable := [full] }
    let entry := { s with offerTable := [full] }
    offerTableOk s.own s.offerTable ∧
    candidates s =
      [⟨.peer, 2, 41, 1, 0, 7, 3, 0, 0, 0⟩, ⟨.peer, 5, 60, 1, 1, 4, 1, 0, 1, 0⟩, ⟨.peer, 14, 58, 0, 2, 5, 0, 1, 0, 0⟩,
       ⟨.peer, 17, 30, 1, 0, 8, 9, 0, 0, 0⟩] ∧
    (candidates { s with now := ms 100900 }).map Candidate.station = [2, 5, 14] ∧
    candidates { s with straps := pins 0 } = [] ∧ candidates entry = [] ∧
    candidates { s with offerTable := [{ full with depth := 5 }] } = [⟨.peer, 2, 50, 0, 5, 7, 3, 0, 0, 0⟩] ∧
    candidates loc = [⟨.loc, 9, 52, 0, 0, 0, 0, 0, 0, 1⟩] := by
  refine ⟨⟨by decide, by decide, by decide⟩, by decide, by decide, by decide, by decide, by decide, by decide⟩

/-- 02, "The local path at its limits", case 1: 1,076 clamps to 1,000; a raw score below 0 gives 0. -/
theorem test_score_clamps : (⟨.loc, 14, 63, 2, 0, 0, 0, 0, 0, 1⟩ : Candidate).raw = 1076 ∧
    (⟨.loc, 14, 63, 2, 0, 0, 0, 0, 0, 1⟩ : Candidate).score = 1000 ∧
    (⟨.peer, 25, 20, 1, 5, 22, 6, 1, 0, 0⟩ : Candidate).raw = -306 ∧
    (⟨.peer, 25, 20, 1, 5, 22, 6, 1, 0, 0⟩ : Candidate).score = 0 := by decide

/-- Station 9 with lane 4 BUSY and lane 6 quarantined (03, worked example). -/
def station9Lanes : State :=
  { idle 9 with
    lanes := { PerLane.all freeLane with
      l4 := { freeLane with occupancy := .busy }, l6 := { freeLane with quarantineUntil := some (ms 9000) } } }

theorem witness_laneMaskHoldsTheFreeLanes : station9Lanes.laneMask = 0b010111 := by decide

/-- 03, worked examples: station 2 takes lane 2 of 1, 2, 3, 5; station 14 takes lane 5 of 1, 5; an empty mask gives none. -/
theorem witness_laneChoiceIsFirstInSearch : chooseLane 0b010111 (idle 2) = some .l2 ∧
    chooseLane 0b010001 (idle 14) = some .l5 ∧ chooseLane 0 (idle 14) = none ∧ chooseLane 0b111111 State.reset = none := by
  decide

/-! ## Own offers and the Offer Table -/

/-- Station 9 at 1,000 ms with this schedule. -/
def sched9 (x : OfferSchedule) : State := { idle 9 with sched := x }

/-- ACTIVE, with the periodic OFFER and a change due at 1,000 ms. -/
def active (last : Time) : OfferSchedule :=
  { OfferSchedule.cleared with
    phase := .active, periodicDue := some (ms 1000), changeDeadline := some (ms 1000), lastHandover := some last }

def starting : OfferSchedule := { OfferSchedule.cleared with phase := .starting, firstDue := some (ms 1000) }

theorem witness_offersGoOutWhenDue_first :
    let s := sched9 starting
    let low : State := { s with supply := { s.supply with state := .low } }
    s.inReset = false ∧ s.sched.phase = .starting ∧ s.sched.firstDue = some (ms 1000) ∧ ms 1000 ≤ max s.now (ms 1000) ∧
    s.offeringFlag = true ∧ low.offeringFlag = false ∧
    (after (.offerFirstDue (ms 1000)) s).sched.periodicDue = some (ms 3000) ∧
    (after (.offerFirstDue (ms 1000)) s).band.offer = some (offerFrame s.content) ∧
    (after (.offerFirstDue (ms 1000)) low).sched.phase = .withdrawn ∧
    (after (.offerFirstDue (ms 1000)) low).band.offer = none := by decide

theorem witness_offersGoOutWhenDue_periodic :
    let s := sched9 (active (ms 750))
    let early := sched9 (active (ms 750 + 1))
    (s.inReset = false ∧ s.sched.phase = .active ∧ s.sched.periodicDue = some (ms 1000) ∧ ms 1000 ≤ max s.now (ms 1000)) ∧
    (∀ x, s.sched.lastHandover = some x → x + ms 250 ≤ max s.now (ms 1000)) ∧
    (early.sched.lastHandover = some (ms 750 + 1) ∧ max s.now (ms 1000) < ms 750 + 1 + ms 250 ∧
      early.sched.deferred = none) ∧
    (after (.offerPeriodicDue (ms 1000)) s).sched.lastHandover = some (ms 1000) ∧
    (after (.offerPeriodicDue (ms 1000)) early).sched.deferred = some .periodic :=
  ⟨by decide, by intro x h; cases h; decide, by decide, by decide, by decide⟩

theorem witness_offersGoOutWhenDue_change :
    let s := sched9 (active (ms 750))
    let same := sched9 { active (ms 750) with reference := some (idle 9).content }
    let early := sched9 (active (ms 750 + 1))
    (s.sched.phase = .active ∧ s.sched.changeDeadline = some (ms 1000) ∧ ms 1000 ≤ max s.now (ms 1000)) ∧
    (∀ x, s.sched.lastHandover = some x → x + ms 250 ≤ max s.now (ms 1000)) ∧
    (contentDiffers s.content s.sched.reference = true ∧ contentDiffers same.content same.sched.reference = false ∧
      contentDiffers early.content early.sched.reference = true) ∧
    (after (.changeDeadline (ms 1000)) s).band.offer = some (offerFrame s.content) ∧
    (after (.changeDeadline (ms 1000)) same).band.offer = none ∧
    (after (.changeDeadline (ms 1000)) early).sched.deferred = some .change :=
  ⟨by decide, by intro x h; cases h; decide, by decide, by decide, by decide, by decide⟩

theorem witness_offersGoOutWhenDue_spacing :
    let s := sched9 { active (ms 750) with deferred := some .change }
    let owed := sched9 { active (ms 750) with phase := .withdrawn, withdrawalOwed := true }
    (∀ x, s.sched.lastHandover = some x → x + ms 250 ≤ max s.now (ms 1000)) ∧
    (∀ x, owed.sched.lastHandover = some x → x + ms 250 ≤ max s.now (ms 1000)) ∧
    s.sched.phase = .active ∧ s.sched.deferred ≠ none ∧ owed.sched.phase = .withdrawn ∧ owed.sched.withdrawalOwed = true ∧
    (after (.offerSpacingEnd (ms 1000)) s).sched.deferred = none ∧
    (after (.offerSpacingEnd (ms 1000)) owed).sched.withdrawalOwed = false :=
  ⟨by intro x h; cases h; decide, by intro x h; cases h; decide, by decide⟩

/-- An OFFER: NORMAL, depth 7 taken as 6, module A FREE on 214,037 at quality 70 taken as 63, one usable network (R11). -/
def offer2 : Rx := rx 2 0 [1, 7, 17, 3, 68, 21, 70, 1, 0, 0, 0, 0, 0, 0]

theorem witness_offerStoresItsEntry :
    (idle 9).inReset = false ∧ (idle 9).hearsOffer offer2 ∧
    readOffer offer2.payload = .entry .normal 6 (some ⟨.free, some 214037, 63, 1⟩) none ∧
    (idle 9).waitsForCandidate = false ∧ (idle 9).offerTable.length < 30 ∧
    (after (.offer (ms 1001) offer2) (idle 9)).offerTable =
      [⟨2, ms 1001, .normal, 6, some ⟨.free, some 214037, 63, 1⟩, none⟩] := by decide

/-- The entry of station 17 of 01's worked example lapses at 100,900 ms and not before; a withdrawal of station 5 removes its
entry; the avoid-list entry of 84,000 leaves at 114,000 ms. -/
theorem witness_entriesLeaveInTime :
    let s := station9Ranks
    s.inReset = false ∧ s.hearsOffer (rx 5 0 (4 :: List.replicate 13 0)) ∧
    readOffer (4 :: List.replicate 13 0) = .withdrawal ∧
    (after (.offerWithdrawal (ms 100001) (rx 5 0 (4 :: List.replicate 13 0))) s).offerTable.map OfferEntry.station
      = [2, 14, 17] ∧
    (after (.offerEntryExpiry (ms 100900 - 1) 17) s).offerTable.length = 4 ∧
    (after (.offerEntryExpiry (ms 100900) 17) s).offerTable.length = 3 ∧
    (after (.avoidEntryLeave (ms 114000 - 1) 5) s).coc.avoid.length = 1 ∧
    (after (.avoidEntryLeave (ms 114000) 5) s).coc.avoid = [] := by decide

theorem witness_flagChangeActsOnTheSchedule :
    let s0 := sched9 (active (ms 750))
    let s : State := { s0 with band := { s0.band with dupFault := true } }
    let soon : State := { s with sched := active (ms 750 + 1) }
    let first : State := { s with sched := { active 0 with periodicDue := none, lastHandover := none } }
    let back := sched9 { active (ms 750) with phase := .withdrawn }
    (s0.offeringFlag = true ∧ s.offeringFlag = false ∧ s.sched.phase = .active ∧ soon.sched.phase = .active ∧
      soon.offeringFlag = false ∧ soon.sched.lastHandover = some (ms 750 + 1) ∧ s.now < ms 750 + 1 + ms 250) ∧
    (∀ x, s.sched.lastHandover = some x → x + ms 250 ≤ s.now) ∧
    (first.sched.phase = .active ∧ first.offeringFlag = false ∧ first.sched.lastHandover = none ∧
      (offerSync s0 first).band.offer = some (offerFrame first.content)) ∧
    (s.offeringFlag = false ∧ back.offeringFlag = true ∧ back.sched.phase = .withdrawn) ∧
    (offerSync s0 s).band.offer = some (offerFrame s.content) ∧ (offerSync s0 soon).sched.withdrawalOwed = true ∧
    (offerSync s back).sched.changeDeadline = some (ms 1100) :=
  ⟨by decide, by intro x h; cases h; decide, by decide, by decide, by decide, by decide, by decide⟩

/-! ## Caller Panel and Supply Monitor -/

/-- Station 9 with its button filter in this state, last sampled at 1,000 ms. -/
def button9 (pressed : Bool) (n : Nat) : State :=
  { idle 9 with button := { pressed := pressed, disagree := n, sampledAt := ms 1000 } }

theorem witness_buttonIsFilteredAndTaken :
    let s := button9 false 2
    let t := ms 1010
    (s.inReset = false ∧ s.coc.state = .idle ∧ s.noCandidate ∧ s.svc.test = none ∧ s.button.sampledAt + ms 10 ≤ max s.now t) ∧
    ((after (.buttonSample (t - 1) false) s).button = s.button ∧ (after (.buttonPress (t - 1)) s).coc.state = .idle ∧
      (after (.buttonRelease (t - 1)) (button9 true 2)).button = ⟨true, 2, ms 1000⟩) ∧
    ((after (.buttonSample t false) s).button.disagree = 0 ∧ (after (.buttonSample t true) (button9 false 1)).button.disagree = 2 ∧
      (after (.buttonRelease t) (button9 true 2)).button = ⟨false, 0, t⟩) ∧
    ((after (.buttonPress t) s).coc.state = .seeking ∧ (after (.buttonPress t) s).coc.tag = 1 ∧
      (after (.buttonPress t) s).coc.retryTime = some (ms 3010) ∧
      (after (.buttonPress t) s).coc.searchDeadline = some (ms 181010) ∧ (after (.buttonPress t) s).lamp.running = .seek ∧
      s.csw.speaker.overlay ≠ some .ident) := by decide

theorem witness_buttonIsFilteredAndTaken_ignored :
    let s : State := { button9 false 2 with coc := (origin9 .probing none).coc }
    s.button = ⟨false, 2, ms 1000⟩ ∧ s.button.sampledAt + ms 10 ≤ max s.now (ms 1010) ∧ s.coc.state ≠ .idle ∧ s.coc.state ≠ .failed ∧ s.svc.test = none ∧
    (after (.buttonPress (ms 1010)) s).coc.pressesIgnored = 1 := by decide

/-- R177: of a button held from the end of the reset, the third sample, 30 ms after it, is the press; the samples at its end are
none. -/
theorem test_first_press :
    let at_ := fun (t : Time) (s : State) => after (.buttonSample t true) s
    let s := afterFullReset (pins 9) 0
    (at_ 0 (at_ 0 (at_ 0 s))).coc.state = .idle ∧ (at_ (ms 20) (at_ (ms 10) s)).coc.state = .idle ∧
    (at_ (ms 30) (at_ (ms 20) (at_ (ms 10) s))).coc.state = .seeking := by decide

def lamp9 (x : Lamp) : State := { idle 9 with lamp := x }

/-- SEEK since 0 ms, with this many periods complete. -/
def seeking (n : Nat) (p : Option LampPattern) : Lamp :=
  { requested := .seek, wanted := .seek, running := .seek, pending := p, periodCount := n, since := 0, on := true }

theorem witness_lampRunsItsPattern :
    (lampTimes (seeking 6 none).running = some (ms 1000, ms 500) ∧ (seeking 6 none).on = true ∧ 6 < 7) ∧
    (after (.lampOnTimeEnd (ms 1000)) (lamp9 (seeking 6 none))).lamp.on = false ∧
    (after (.lampPeriodEnd (ms 1000)) (lamp9 (seeking 6 none))).lamp.periodCount = 7 ∧
    (LampPattern.lit ≠ .seek ∧ (after (.lampPeriodEnd (ms 1000)) (lamp9 (seeking 6 (some .lit)))).lamp.running = .lit) := by
  decide

/-- 03, worked example: the tick of the eighth SEEK period plays PLEASE-WAIT. -/
theorem witness_lampRunsItsPattern_tick :
    let s : State := { lamp9 (seeking 7 none) with coc := (origin9 .probing none).coc }
    let busy : State := { s with csw := { s.csw with players := { s.csw.players with s := { Player.idle with state := .playing } } } }
    (s.inReset = false ∧ s.lamp.running = .seek ∧ s.lamp.periodCount = 7 ∧ s.lamp.pending = none ∧
      s.lamp.since + ms 1000 ≤ max s.now (ms 1000) ∧ s.coc.state.searching = true ∧ s.csw.players.s.state = .idle ∧
      s.csw.speaker.overlay = none ∧ busy.csw.players.s.state ≠ .idle) ∧
    (after (.periodTick (ms 1000)) s).csw.players.s.prompt = some .pleaseWait ∧
    (after (.periodTick (ms 1000)) busy).csw.players.s.prompt = none := by decide

/-- R159: the thresholds of both sets, at each side of each. -/
theorem test_supply_thresholds :
    classify false .normal 10999 = .low ∧ classify false .normal 11000 = .reserve ∧ classify false .normal 11799 = .reserve ∧
    classify false .normal 11800 = .normal ∧ classify false .reserve 12199 = .reserve ∧ classify false .reserve 12200 = .normal ∧
    classify false .low 11399 = .low ∧ classify false .low 11400 = .reserve ∧ classify true .low 22799 = .low ∧
    classify true .low 22800 = .reserve ∧ classify true .reserve 24400 = .normal ∧ classify true .normal 23599 = .reserve := by
  decide

/-- Station 9 with its supply filter in this state, last sampled at this time. -/
def supply9 (state : Supply) (candidate : Option Supply) (agree : Nat) (at_ : Time) : State :=
  { idle 9 with supply := ⟨state, candidate, agree, at_⟩ }

/-- 09, "A supply dip at station 14": RESERVE, LOW, LOW makes a LOW candidate of count 2; the third LOW changes the state. A
sample 1 unit of time early changes nothing. -/
theorem witness_supplyNeedsThreeSamples :
    let one := supply9 .normal (some .reserve) 1 (ms 6500)
    (one.inReset = false ∧ one.supply.sampledAt + ms 100 ≤ max one.now (ms 6600)) ∧
    (after (.supplySample (ms 6600) 12400) one).supply = ⟨.normal, none, 0, ms 6600⟩ ∧
    (after (.supplySample (ms 6600) 10900) one).supply = ⟨.normal, some .low, 1, ms 6600⟩ ∧
    (after (.supplySample (ms 6600 - 1) 10900) one).supply = one.supply ∧
    (after (.supplySample (ms 6900) 10700) (supply9 .normal (some .low) 1 (ms 6800))).supply = ⟨.normal, some .low, 2, ms 6900⟩ ∧
    (let two := supply9 .normal (some .low) 2 (ms 6900)
     (after (.supplyStateChange (ms 7000) 10600) two).supply = ⟨.low, none, 0, ms 7000⟩ ∧
       (after (.supplyStateChange (ms 7000) 10600) two).sched.phase = .withdrawn ∧
       (after (.supplyStateChange (ms 7000 - 1) 10600) two).supply = two.supply) := by decide

/-! ## Carriage Switch -/

/-- Player S plays a prompt for the origin record from 1,000 ms on. -/
def playing (q : Prompt) (repeats playsDone : BitVec 4) (gap : Time) (st : PlayerState) : State :=
  { idle 9 with
    csw := { Switch.reset with
      speaker := { Slot.empty with overlay := some .player }
      players := { Switch.reset.players with s := ⟨st, some .origin, some q, repeats, gap, playsDone, ms 1000⟩ } } }

theorem witness_holdsAndPromptsEnd :
    let hold : State := { idle 9 with csw := { Switch.reset with
      speaker := { base := some (.laneRx .l2 .b), owner := some .origin, holdUntil := some (ms 1600), overlay := none } } }
    let once := playing .connecting 1 0 0 .playing
    let again := playing .holdLine 0 14 (ms 3000) .playing
    let between := playing .holdLine 0 1 (ms 3000) .gap
    (hold.inReset = false ∧ (hold.csw.slot .speaker).holdUntil = some (ms 1600) ∧
      (after (.holdUntilEnd (ms 1600) .speaker) hold).csw.speaker.holdUntil = none) ∧
    ((once.csw.players.get .s).owner = some .origin ∧ (once.csw.players.get .s).prompt = some .connecting ∧
      (once.csw.players.get .s).state = .playing ∧ (once.csw.players.get .s).playsDone + 1 = (once.csw.players.get .s).repeats ∧
      (after (.promptPlayEnd (ms 3400) .s) once).csw.players.s.state = .idle ∧
      (after (.promptPlayEnd (ms 3400 - 1) .s) once).csw.players.s.state = .playing) ∧
    ((again.csw.players.get .s).playsDone.toNat < 15 ∧
      (again.csw.players.get .s).playsDone + 1 ≠ (again.csw.players.get .s).repeats ∧
      (after (.promptPlayEnd (ms 3200) .s) again).csw.players.s.state = .gap) ∧
    ((between.csw.players.get .s).state = .gap ∧
      (after (.promptGapEnd (ms 4000) .s) between).csw.players.s.state = .playing) := by decide

/-- What destinations hear, by overlay, hold and route, and the hold of a new route from a lane. -/
theorem witness_holdsAndPromptsEnd_hears :
    let on := fun (x : Slot) => ({ idle 9 with csw := { Switch.reset with speaker := x } } : State)
    let lane : Source := .laneRx .l2 .b
    let hold := on { base := some lane, owner := some .origin, holdUntil := some (ms 1001), overlay := none }
    let route := setRoute .speaker lane .origin (idle 9)
    (destHears (playing .connecting 1 0 0 .playing) (playerDest .s) = .prompt .connecting ∧
      destHears (playing .connecting 1 0 0 .gap) .speaker = .silence) ∧
    (destHears (idle 9) .speaker = .silence ∧ destHears hold .speaker = .silence ∧
      destHears { hold with now := ms 1001 } .speaker = .source lane ∧
      destHears (on { Slot.empty with base := some .mic }) .speaker = .source .mic ∧
      destHears (on { Slot.empty with base := some .silence }) .speaker = .silence ∧
      destHears (on { Slot.empty with base := some (.modRx .a) }) .speaker = .source (.modRx .a) ∧
      destHears { hold with now := ms 1001, csw := { hold.csw with gapB := PerLane.all true } } .speaker = .silence) ∧
    (((idle 9).csw.slot .speaker).base ≠ some lane ∧ route.csw.speaker = ⟨some lane, some .origin, some (ms 1600), none⟩ ∧
      (setRoute .speaker .mic .origin route).csw.speaker.holdUntil = none) := by decide

def burst9 : BurstRequest := { dest := .a, sectionCode := 47, origin := 9, carrier := 2 }

def bursting (digit : Nat) (inTone : Bool) : State :=
  { idle 2 with csw := { Switch.reset with
    modTx := { a := { Slot.empty with overlay := some .ident }, b := Slot.empty }
    ident := { running := some burst9, waiting := none, digits := burstDigits burst9, digit := digit, inTone := inTone,
               since := ms 1000 } } }

theorem witness_identityBurstTiming :
    ((bursting 1 true).inReset = false ∧ (bursting 1 true).csw.ident.running = some burst9 ∧
      (bursting 8 false).csw.ident.waiting = none ∧ (bursting 8 false).carriageWaits .a = false) ∧
    (after (.identToneEnd (ms 1070)) (bursting 1 true)).csw.ident.inTone = false ∧
    (after (.identToneEnd (ms 1070 - 1)) (bursting 1 true)).csw.ident.inTone = true ∧
    (after (.identGapEnd (ms 1050)) (bursting 7 false)).csw.ident.digit = 8 ∧
    (after (.identGapEnd (ms 1050)) (bursting 8 false)).csw.ident.running = none ∧
    (after (.identGapEnd (ms 1050)) (bursting 8 false)).csw.modTx.a.overlay = none := by decide

/-- R142, R151: the burst is heard in a tone and is silent in a gap. -/
theorem witness_identityBurstTiming_hears :
    ((bursting 1 true).csw.slot (.modTx .a)).overlay = some .ident ∧ destHears (bursting 1 true) (.modTx .a) = .burst ∧
    destHears (bursting 1 false) (.modTx .a) = .silence ∧ (bursting 2 true).csw.ident.tone = some 1200 := by decide

set_option maxRecDepth 20000 in
/-- R151: each figure of the quarter wave has the sine's square beside its cosine's: sin² + cos² = 1, between the figures and
the figures plus 1. -/
theorem test_sine_table :
    ∀ k < 41, (sineTable.getD k 0) ^ 2 + (sineTable.getD (40 - k) 0) ^ 2 ≤ 8192 ^ 2 ∧
      8192 ^ 2 < (sineTable.getD k 0 + 1) ^ 2 + (sineTable.getD (40 - k) 0 + 1) ^ 2 := by decide

/-- R150: section 047, origin 9, carrier 2; the check digit is 22 mod 10. R151: digit 7 is a tone of 1,650 Hz. -/
theorem test_burst_digits : burstDigits burst9 = [0, 4, 7, 0, 9, 0, 2, 2] ∧ toneHertz 7 = 1650 := by decide

/-! ## Control Band Interface -/

def band9 (b : Band) : State := { idle 9 with band := b }

theorem witness_bandActiveAndQuiet :
    let b : Band := { Band.reset 0 with quietSince := none, lastDominant := ms 999 }
    (band9 b).inReset = false ∧ (band9 b).band.quietSince = none ∧
    (after (.bandQuiet (ms 999 + 50)) { band9 b with now := ms 999 }).band.quietSince = some (ms 999) ∧
    max (ms 999) (ms 999 + 49) < (band9 b).band.lastDominant + 50 ∧
    (after (.bandActivity (ms 1001)) (idle 9)).band.quietSince = none ∧
    (after (.bandActivity (ms 1000)) (band9 b)).band.receiving = true ∧
    (after (.bandActivity (ms 1000 - 1)) { band9 b with now := 0 }).band.receiving = false := by decide

def claim41 : Frame := claimFrame 2 41 .new 0b010111

/-- A CLAIM in hand, WAITING after `n` collisions or on the line; the band quiet since 1,000 ms. -/
def inHand (n : Nat) (onLine : Bool) : Band :=
  { Band.reset (ms 1000) with
    calls := [claim41], hand := some ⟨.call, if onLine then some claim41 else none, n, false⟩ }

/-- R165, and 10's worked example: after 6 collisions station 2 waits 18.5 ms. -/
theorem witness_sendingWaitsForTheRequiredQuiet :
    let s := band9 (inHand 0 false)
    (s.inReset = false ∧ s.band.hand = some ⟨.call, none, 0, false⟩ ∧ s.band.quietSince = some (ms 1000)) ∧
    ((after (.sendStart (ms 1002)) s).band.hand.map Hand.line = some (some claim41) ∧
      (after (.sendStart (ms 1002 - 1)) s).band.hand = s.band.hand) ∧
    ((after (.sendStart (ms 1018 + 48)) { idle 2 with band := inHand 6 false }).band.quietSince = none ∧
      (after (.sendStart (ms 1018 + 47)) { idle 2 with band := inHand 6 false }).band.quietSince = some (ms 1000)) := by decide

/-- R165: the required quiet ends at 1,002 ms. A start edge heard at that moment or up to four units before it is joined, in the
five units of its bit time; one heard five units before it, and one unit after it, is deferred to. -/
theorem witness_sendingWaitsForTheRequiredQuiet_joins :
    let edge := fun (t : Time) => after (.bandActivity t) { band9 (inHand 0 false) with now := ms 1000 }
    let sends := fun (s : State) (t : Time) => (after (.sendStart t) s).band.hand.map Hand.line == some (some claim41)
    let d := ms 1002
    ((edge d).inReset = false ∧ (edge d).band.hand = some ⟨.call, none, 0, false⟩ ∧ (edge d).band.quietSince = none ∧
      (edge d).band.startEdge = some ⟨d, ms 1000⟩) ∧
    (sends (edge d) d = true ∧ sends (edge d) (d + 4) = true ∧ sends (edge d) (d + 5) = false) ∧
    (sends (edge (d - 4)) (d - 1) = false ∧ sends (edge (d - 4)) d = true ∧ sends (edge (d - 5)) d = false ∧
      sends (edge (d + 1)) (d + 1) = false) ∧
    (after (.sendStart d) (edge d)).band.startEdge = none ∧
    sends (after (.bandActivity (d + 2)) (edge d)) (d + 3) = true ∧
    (let s := after (.sendStart (d + 4)) (edge d)
     s.band.sendSince = d ∧ bandLine s = false ∧ bandLine { s with now := d + 29 } = false ∧
       bandLine { s with now := d + 30 } = true) ∧
    (sends { edge d with band := { (edge d).band with startEdge := none } } d = false) := by decide

set_option maxRecDepth 8000 in
/-- R162: the bits of a CLAIM sent from 1,002 ms on, 90 bit times: its kind octet 7, its check's last octet 41, and rest. -/
theorem witness_sentFramesPassTheirCheck_line :
    let s := after (.sendStart (ms 1002)) (band9 (inHand 0 false))
    let level := fun (j k : Nat) => bandLine { s with now := ms 1002 + (10 * j + k) * 5 + 4 }
    (s.band.hand.bind Hand.line = some claim41 ∧ s.band.sendSince = ms 1002 ∧
      (frameOctets (oct s.own) claim41)[8]? = some 41 ∧ (band9 (inHand 0 false)).band.hand.bind Hand.line = none) ∧
    (List.range 10).map (level 0) = [false, false, false, false, false, false, true, true, true, true] ∧
    (List.range 10).map (level 8) = [false, false, false, true, false, true, false, false, true, true] ∧
    level 9 0 = true ∧ bandLine (band9 (inHand 0 false)) = true := by decide

theorem witness_framesLeaveTheQueue :
    let s := band9 (inHand 6 true)
    let f := offerFrame (idle 9).content
    let o := band9 { Band.reset 0 with offer := some f, hand := some ⟨.offer, some f, 0, false⟩ }
    let r := band9 { Band.reset 0 with offer := some f, hand := some ⟨.offer, some f, 0, true⟩ }
    let v := band9 { Band.reset 0 with services := [statusReport 2 []], hand := some ⟨.service, some (statusReport 2 []), 0, false⟩ }
    (s.inReset = false ∧ s.band.hand = some ⟨.call, some claim41, 6, false⟩ ∧ o.band.hand = some ⟨.offer, some f, 0, false⟩ ∧
      r.band.hand = some ⟨.offer, some f, 0, true⟩ ∧ v.band.hand.map Hand.cls = some .service) ∧
    ((after (.frameSent (ms 1005)) s).band.calls = [] ∧ (after (.frameSent (ms 1005)) s).counters.framesSent = 1 ∧
      (after (.frameSent (ms 1005)) o).band.offer = none ∧ (after (.frameSent (ms 1005)) r).band.offer = some f ∧
      (after (.frameSent (ms 1005)) v).band.services = []) ∧
    ((after (.collision (ms 1005)) s).band.hand = some ⟨.call, none, 7, false⟩ ∧
      (after (.collision (ms 1005)) (band9 (inHand 7 true))).band.calls = [] ∧
      (after (.collision (ms 1005)) (band9 (inHand 7 true))).counters.framesDropped = 1) := by decide

set_option maxRecDepth 8000 in
theorem witness_unusableFramesAreCounted :
    let s := idle 9
    let h : State := { s with band := Band.reset 0 }
    let long := rx 2 9 (List.replicate 41 0)
    let stopped : State := { s with band := { s.band with lastDominant := ms 1000 } }
    (s.band.receiving = true ∧ h.band.receiving = false ∧ s.receives (rx 32 9 []) ∧ 40 < long.payload.length) ∧
    ((after (.frameDiscarded (ms 1001) .truncated) stopped).counters.checkErrors = 1 ∧
      (after (.frameDiscarded (ms 1001 - 1) .truncated) stopped).counters.checkErrors = 0 ∧
      (after (.frameDiscarded (ms 1001) .badStopBit) s).band.receiving = false ∧
      (after (.frameDiscarded (ms 1001) .badStopBit) h).counters.checkErrors = 0 ∧
      (after (.unknownKindFrame (ms 1001) 8 long) s).counters.checkErrors = 1 ∧
      (after (.unknownKindFrame (ms 1001) 8 (rx 31 0 [])) h).counters = Counters.zero) ∧
    (s.inReset = false ∧ 40 < (41 : Octet).toNat ∧ checkGood [7, 9, 2, 3, 41, 0, 23, 120, 42] = false) ∧
    (after (.frameDiscarded (ms 1001) (.lengthAbove40 41)) s).counters.checkErrors = 1 ∧
    (after (.frameDiscarded (ms 1001) (.badCheck [7, 9, 2, 3, 41, 0, 23, 120, 42])) s).counters.checkErrors = 1 ∧
    ((rx 32 9 []).sender.toNat ≠ s.own ∧ 31 < (rx 32 9 []).sender.toNat ∧ kindOf 8 = none ∧
      (after (.unknownKindFrame (ms 1001) 7 (rx 32 9 [])) s).counters.framesDropped = 1 ∧
      (after (.unknownKindFrame (ms 1001) 8 (rx 31 0 [])) s).counters.framesDropped = 1) ∧
    ((rx 31 9 []).sender.toNat ≤ 31 ∧ (after (.reportFrameHeard (ms 1001) (rx 31 9 [])) s).counters = Counters.zero) := by
  decide

/-- R60, R173: every frame that the arbiter discards is counted, and none that names a carriage or a queued claim. -/
theorem witness_unusableFramesAreCounted_arbiter :
    let s : State := { idle 9 with claims := [⟨5, 8, false, some 63, 0, ms 30000, some 0⟩] }
    let drops := fun (c : Instr) => (after c s).counters.framesDropped
    let t := ms 1001
    (s.receives (rx 5 9 [7, 6]) ∧ s.carriageOf 5 7 = none ∧ s.queued 5 7 = false ∧ s.queued 5 8 = true) ∧
    drops (.claimNew t (rx 5 0 [7, 0, 23])) = 1 ∧ drops (.claimNew t (rx 5 9 [7, 2, 23])) = 1 ∧
    drops (.claimRejoin t (rx 0 9 [7, 1, 23])) = 1 ∧ drops (.claimRejoin t (rx 5 9 [7, 1])) = 1 ∧
    drops (.connect t (rx 5 0 [7, 3, 0])) = 1 ∧ drops (.connect t (rx 5 9 [7, 3, 0])) = 1 ∧
    drops (.connect t (rx 5 9 [7, 3])) = 1 ∧ drops (.releaseFromOrigin t (rx 0 9 [7, 6])) = 1 ∧
    drops (.releaseFromOrigin t (rx 5 9 [7, 6])) = 1 ∧ drops (.releaseFromOrigin t (rx 5 9 [7])) = 1 ∧
    drops (.releaseFromOrigin t (rx 5 9 [8, 6])) = 0 := by decide

theorem witness_duplicateFrameSetsTheFault :
    let s := sched9 (active (ms 750))
    s.inReset = false ∧ s.own ≠ 0 ∧ s.band.receiving = true ∧ s.offeringFlag = true ∧ s.sched.phase = .active ∧
    (after (.duplicateNumberFrame (ms 1001)) s).lamp.running = .fault ∧
    (after (.duplicateNumberFrame (ms 1001)) s).sched.phase = .withdrawn := by decide

/-- 10, "A transmit queue under a noisy band", by the kinds and targets of its call-class entries. -/
def noisy : State :=
  { idle 2 with
    band := { Band.reset 0 with
      calls := [waitFrame 9 50 1, waitFrame 16 12 2, progressFrame 3 7 2 0, waitFrame 4 20 3, refuseFrame 6 33 .expired,
                waitFrame 12 8 4, releaseFrame 13 2 .farClear, waitFrame 10 19 5, refuseFrame 15 4 .queueFull],
      offer := some (offerFrame (idle 2).content), services := [statusReport 30 [], statusReport 30 []],
      hand := some ⟨.call, none, 5, false⟩ } }

/-- The WAIT to station 16 is displaced and PROGRESS(ANSWERED) placed after the REFUSE to 15; a third service frame is lost. -/
theorem test_noisy_queue :
    noisy.band.size = 12 ∧
    (handOver (progressFrame 3 7 3 0) noisy).band.calls.map Frame.target = [9, 3, 4, 6, 12, 13, 10, 15, 3] ∧
    (handOver (progressFrame 3 7 3 0) noisy).counters.framesDropped = 1 ∧
    (handOver (statusReport 30 []) noisy).band.services.length = 2 ∧
    (handOver (statusReport 30 []) noisy).counters.framesDropped = 1 := by decide

/-- A full queue of twelve call frames, the one in hand among them. -/
def fullQueue (calls : List Frame) (hand : Option Hand) : State := { idle 2 with band := { Band.reset 0 with calls := calls, hand := hand } }

theorem witness_handOverJoinsItsClass_full :
    let w := waitFrame 9 50 1
    let calls := w :: List.replicate 11 claim41
    let taken : Option Hand := some ⟨.call, none, 0, false⟩
    let f := offerFrame (idle 2).content
    let sending : State :=
      { idle 2 with band := { Band.reset 0 with offer := some (offerFrame (idle 9).content), hand := some ⟨.offer, some f, 3, false⟩ } }
    ((fullQueue calls none).band.size = 12 ∧ calls = [] ++ w :: List.replicate 11 claim41 ∧ w.kind = .wait ∧
      claim41.kind ≠ .wait) ∧
    ((handOver claim41 (fullQueue calls none)).band.calls = List.replicate 12 claim41 ∧
      (handOver claim41 (fullQueue calls taken)).band.calls = calls ∧
      (handOver claim41 (fullQueue calls taken)).counters.framesDropped = 1 ∧
      (handOver f (fullQueue calls taken)).band.offer = none ∧
      (handOver f (fullQueue calls taken)).counters.framesDropped = 1) ∧
    (handOver f sending).band.hand = some ⟨.offer, some f, 3, true⟩ ∧ (handOver f sending).band.offer = some f ∧
    (handOver claim41 (idle 2)).band.hand = some ⟨.call, none, 0, false⟩ := by decide

theorem witness_handOverJoinsItsClass :
    State.reset.own = 0 ∧ (idle 2).own ≠ 0 ∧ (idle 2).band.size < 12 ∧ frameClass claim41.kind = .call ∧
    frameClass (offerFrame (idle 2).content).kind = .offer ∧ (idle 2).band.hand = none ∧
    frameClass (statusReport 30 []).kind = .service ∧ (idle 2).band.services.length < 2 ∧
    (let two : State := { idle 2 with band := { Band.reset 0 with services := [statusReport 30 [], statusReport 30 []] } }
     two.band.size < 12 ∧ 2 ≤ two.band.services.length ∧
       (handOver (statusReport 30 []) two).counters.framesDropped = 1) := by decide

/-! ## Call Origin Controller -/

/-- Station 9 with these changes to its origin record. -/
def coc9 (f : Origin → Origin) (st : OriginState) (l : Option Lane) : State :=
  { origin9 st l with coc := f (origin9 st l).coc }

/-- Station 9 without modules: no LOCAL path, and no Offer Table entry. -/
def bare (s : State) : State := { s with modules := { a := Module.absent, b := Module.absent } }

theorem witness_retryRanksAgain :
    let wait : Origin := { Origin.reset with state := .seeking, tag := 41, tagCounter := 41, retryTime := some (ms 1000),
                                             searchDeadline := some (ms 179000) }
    let s : State := { idle 9 with coc := wait }
    let r : State := { s with offerTable := [⟨2, ms 900, .normal, 0, some ⟨.free, some 214037, 41, 3⟩, none⟩] }
    (s.inReset = false ∧ s.coc.state = .seeking ∧ s.coc.retryTime = some (ms 1000) ∧ s.noCandidate ∧
      (after (.retryTime (ms 1000)) s).coc.retryTime = some (ms 3000)) ∧
    ((ranking (startEvent (ms 1000) r)).map (fun c => (c.kind, c.station)) = some (.peer, 2) ∧ r.laneMask ≠ 0 ∧
      (after (.retryTime (ms 1000)) r).coc.state = .claiming ∧
      (after (.retryTime (ms 1000)) r).band.calls = [claimFrame 2 41 .new 63]) := by decide

/-- Station 9 SEEKING at its retry time with module A READY: the LOCAL path is the outcome. -/
def localSeeks (r : Module) (claims : List ClaimEntry) : State :=
  { withMod (idle 9) .a r with
    claims := claims
    coc := { Origin.reset with state := .seeking, tag := 41, tagCounter := 41, retryTime := some (ms 1000) } }

theorem witness_retryRanksAgain_local :
    let g := localSeeks readyMod []
    let q := localSeeks { readyMod with link := true } [⟨5, 7, false, some 63, 0, ms 30000, some 0⟩]
    let n := localSeeks readyMod ([2, 3, 4, 6, 7, 8].map fun o => ⟨o, 7, false, some 63, 0, ms 30000, some 0⟩)
    let u := after (.retryTime (ms 1000)) g
    let v := after (.retryTime (ms 1000)) q
    let w := after (.retryTime (ms 1000)) n
    ([g, q, n].all fun s => (ranking (startEvent (ms 1000) s)).any (fun c => c.kind = .loc) && s.anyServiceable &&
      s.claims.all fun e => e.origin != s.own) = true ∧
    (chooseModule g = some .a ∧ dialChoice (g.mod .a).table (g.mod .a).selected [] = .dial 214037 ∧
      (g.mod .a).inFlight = none ∧ chooseModule q = none ∧ n.claims.length = 6) ∧
    (u.coc.state = .dialing ∧ u.coc.network = some 214037 ∧ u.out = [.order .a .dial 0] ∧
      u.csw.speaker.base = some (.modRx .a)) ∧
    (v.coc.state = .queued ∧ v.coc.queuePos = some 2 ∧ v.claims.map ClaimEntry.expiresAt = [ms 30000, ms 31000]) ∧
    (w.coc.state = .seeking ∧ w.coc.avoid = [⟨9, ms 1000⟩] ∧ w.coc.retryTime = some (ms 3000)) := by decide

/-- The first order of a granted local claim: another network selected first, and a refresh scan aborted. The refusal of a module
that is linked in FAULT, a state that no run reaches. -/
theorem witness_retryRanksAgain_orders :
    let g := localSeeks { readyMod with selected := some 500220 } []
    let f := localSeeks (flying .scan 0 { readyMod with state := .refreshing }) []
    let n : State := { g with modules := { a := { readyMod with state := .fault, link := true }, b := Module.absent } }
    let u := after (.retryTime (ms 1000)) g
    let v := after (.retryTime (ms 1000)) f
    let w := after (.retryTime (ms 1000)) n
    ([g, f, n].all fun s => (ranking (startEvent (ms 1000) s)).any fun c => c.kind = .loc) = true ∧
    (g.anyServiceable = true ∧ f.anyServiceable = true ∧ n.anyServiceable = false ∧ chooseModule g = some .a ∧
      dialChoice (g.mod .a).table (g.mod .a).selected [] = .select 214037 ∧ (g.mod .a).inFlight = none ∧
      chooseModule f = some .a ∧ (f.mod .a).state = .refreshing ∧ (f.mod .a).flying .scan = true) ∧
    (u.out = [.order .a .select 214037] ∧ u.coc.state = .dialing ∧ u.coc.stage = some .dialing ∧
      u.coc.network = some 214037 ∧ u.modules.a.state = .selecting) ∧
    (v.out = [.order .a .abort 0] ∧ v.coc.state = .dialing ∧ v.coc.stage = none ∧
      v.modules.a.pendingOrder = some (.dial [])) ∧
    (w.coc.state = .seeking ∧ w.coc.avoid = [⟨9, ms 1000⟩] ∧ w.coc.retryTime = some (ms 3000)) := by decide

/-- R36: two lanes come free at one moment; the first ends the wait, and the second finds it ended. -/
theorem test_second_wake :
    let s : State := { localSeeks readyMod [] with modules := { a := Module.absent, b := Module.absent } }
    let u := wakeOrigin s
    u.coc.wokenAt = some (ms 1000) ∧ u.coc.retryTime = some (ms 3000) ∧ wakeOrigin u = u ∧
    (wakeOrigin { u with now := ms 1001 }).coc.wokenAt = some (ms 1001) := by decide

theorem witness_unansweredClaimIsSentAgain :
    let s := coc9 (fun c => { c with attempts := 2, answerDeadline := some (ms 1000) }) .claiming none
    let r := coc9 (fun c => { c with attempts := 2, answerDeadline := some (ms 1000), claimKind := .rejoin }) .recovering none
    (s.inReset = false ∧ s.coc.peer = some 2 ∧ r.coc.peer = some 2 ∧ s.coc.attempts < 3 ∧ ms 1000 ≤ max s.now (ms 1000)) ∧
    (after (.answerDeadline (ms 1000)) s).coc.attempts = 3 ∧
    (after (.answerDeadline (ms 1000)) s).coc.answerDeadline = some (ms 2500) ∧
    (after (.answerDeadline (ms 1000)) r).band.calls = [claimFrame 2 41 .rejoin 63] := by decide

theorem witness_failedClaimSeeksAgain :
    let c := coc9 (fun c => { c with attempts := 3, answerDeadline := some (ms 1000) }) .claiming none
    let q := coc9 (fun c => { c with silenceDeadline := some (ms 1000) }) .queued none
    let p := coc9 (fun c => { c with regrantWait := some (ms 1000) }) .probing none
    let f := rx 2 9 [41, 2]
    (c.inReset = false ∧ c.coc.claimKind = .new ∧ c.noCandidate ∧ q.noCandidate ∧ p.noCandidate ∧ c.hears f ∧
      octetAt f.payload 0 = c.coc.tag) ∧ c.coc.onPeer 2 ∧ q.coc.onPeer 2 ∧ p.coc.onPeer 2 ∧
    ((after (.answerDeadline (ms 1000)) c).coc.state = .seeking ∧ (after (.silenceDeadline (ms 1000)) q).coc.state = .seeking ∧
      (after (.regrantWait (ms 1000)) p).coc.state = .seeking ∧
      (after (.regrantWait (ms 1000)) p).band.calls = [releaseFrame 2 41 .abandon] ∧
      (after (.refuse (ms 1000) f) q).coc.avoid = [⟨2, ms 1000⟩] ∧ (after (.refuse (ms 1000) f) q).band.receiving = false ∧ (after (.refuse (ms 1000) f) q).band.calls = []) :=
  ⟨by decide, ⟨some .a, rfl⟩, ⟨some .a, rfl⟩, ⟨some .a, rfl⟩, by decide⟩

theorem witness_searchFailsAndIsShown :
    let s := coc9 (fun c => { c with searchDeadline := some (ms 1000) }) .recovering none
    let f := coc9 (fun c => { c with failedUntil := some (ms 1000), path := none }) .failed none
    (s.inReset = false ∧ s.csw.speaker.overlay ≠ some .ident ∧ f.coc.failedUntil = some (ms 1000)) ∧ s.coc.onPeer 2 ∧
    ((after (.searchDeadline (ms 1000)) s).coc.failedUntil = some (ms 11000) ∧
      (after (.searchDeadline (ms 1000)) s).lamp.requested = .fail ∧
      (after (.failedUntil (ms 1000)) f).coc.endReason = .failed) :=
  ⟨by decide, ⟨some .a, rfl⟩, by decide⟩

/-- 03, worked example: station 9 with tag 41 is granted lane 2 and module A of station 2; 07: its seed is 2,345. -/
theorem witness_grantIsProbed :
    let s := origin9 .claiming none
    let f := rx 2 9 [41, 2, 0, 0]
    (s.inReset = false ∧ s.hears f ∧ f.payload.length = 4 ∧ s.coc.claimKind = .new ∧ octetAt f.payload 0 = s.coc.tag ∧
      octAt f.payload 1 = laneNumber .l2 ∧ octAt f.payload 2 = modCode .a ∧ octAt f.payload 3 = 0 ∧
      (s.lane .l2).occupancy ≠ .own ∧ (s.lane .l2).owner = none ∧ (s.lane .l2).quarantineUntil = none) ∧
    s.coc.onPeer f.sender.toNat ∧
    ((after (.grant (ms 1000) f) s).coc.state = .probing ∧ (after (.grant (ms 1000) f) s).lanes.l2.owner = some .origin ∧
      (after (.grant (ms 1000) f) s).engines.e0.genSeed = 2345) :=
  ⟨by decide, ⟨some .a, rfl⟩, by decide⟩

theorem witness_waitAndProgressAreNoted :
    let c := origin9 .claiming none
    let d := origin9 .dialing (some .l3)
    let w := rx 2 9 [41, 2]
    let p := fun n : Nat => rx 2 9 [41, oct n, 3, 68, 21]
    (c.inReset = false ∧ c.hears w ∧ c.coc.peer = some w.sender.toNat ∧ octetAt w.payload 0 = c.coc.tag) ∧
    (d.hears (p 3) ∧ (p 3).payload.length = 5 ∧ d.coc.peer = some (p 3).sender.toNat ∧ octAt (p 1).payload 1 = stageCode .reselecting ∧
      octAt (p 3).payload 1 = stageCode .answered) ∧
    (after (.wait (ms 1000) w) c).coc.silenceDeadline = some (ms 13000) ∧
    (after (.progress (ms 1000) (p 1)) d).coc.network = some 214037 ∧
    (after (.progress (ms 1000) (p 1)) d).coc.answered = false ∧
    (after (.progress (ms 1000) (p 3)) d).coc.state = .connected ∧
    (after (.progress (ms 1000) (p 3)) d).lamp.requested = .lit ∧
    (after (.progress (ms 1000) (p 0)) { d with coc := { d.coc with state := .connected } }).coc.stage = some .dialing := by
  decide

/-- Lane 3 OWN, owned by this user. -/
def ownLane (o : Owner) (s : State) : State := s.updLane .l3 fun x => { x with occupancy := .own, owner := some o }

theorem witness_farClearEndsTheCall :
    let s := ownLane .origin (origin9 .connected (some .l3))
    let f := rx 2 9 [41, 0]
    (s.inReset = false ∧ s.hears f ∧ f.payload.length = 2 ∧ octetAt f.payload 0 = s.coc.tag ∧ octAt f.payload 1 = 0 ∧
      (s.lane .l3).occupancy = .own ∧ (s.lane .l3).owner = some .origin) ∧ s.coc.onLane f.sender.toNat .l3 ∧
    ((after (.releaseFromUplink (ms 1000) f) s).coc.endReason = .farClear ∧
      (after (.releaseFromUplink (ms 1000) f) s).lanes.l3.occupancy = .busy) :=
  ⟨by decide, ⟨some .a, rfl⟩, by decide⟩

/-! ## Channel Arbiter -/

def claim5 : Rx := rx 5 9 [7, 0, 23]

def entryOf (o : Station) (now : Time) : ClaimEntry :=
  { origin := o, tag := 7, loc := false, mask := some 63, arrivedAt := now, expiresAt := now + ms 30000, lastWait := some now }

/-- Station 9 with module A busy under a carriage of its own call, so serviceable and not grantable. -/
def busy9 : State := withMod (idle 9) .a { readyMod with link := true }

theorem witness_newClaimIsRefusedOrQueued :
    let n := bare (idle 9)
    let low : State := { busy9 with supply := { busy9.supply with state := .low } }
    let full : State := { busy9 with claims := [2, 3, 4, 6, 7, 8].map fun o => entryOf o 0 }
    (n.hears claim5 ∧ claim5.payload.length = 3 ∧ octAt claim5.payload 1 = 0 ∧ n.svc.test = none ∧ n.band.dupFault = false ∧
      n.anyServiceable = false ∧ low.anyServiceable = true ∧ full.claims.length = 6 ∧ chooseModule busy9 = none) ∧
    (∀ e ∈ full.claims, e.origin ≠ 5) ∧ (∀ m c, busy9.car m = some c → c.origin ≠ 5) ∧
    (after (.claimNew (ms 1000) claim5) n).band.calls = [refuseFrame 5 7 .noChannel] ∧
    (after (.claimNew (ms 1000) claim5) low).band.calls = [refuseFrame 5 7 .lowSupply] ∧
    (after (.claimNew (ms 1000) claim5) full).band.calls = [refuseFrame 5 7 .queueFull] ∧
    (after (.claimNew (ms 1000) claim5) busy9).band.calls = [waitFrame 5 7 1] ∧
    (after (.claimNew (ms 1000) claim5) busy9).claims.map ClaimEntry.expiresAt = [ms 31000] :=
  ⟨by decide, by decide, (by intro m c h; cases m <;> cases h), by decide, by decide, by decide, by decide, by decide⟩

theorem witness_newClaimIsGranted :
    let s := withMod (idle 9) .a readyMod
    (s.inReset = false ∧ s.hears claim5 ∧ s.svc.test = none ∧ s.band.dupFault = false ∧ s.claims = [] ∧
      s.straps.offer = true ∧ s.supply.state ≠ .low ∧ (s.mod .a).state = .ready ∧ chooseModule s = some .a ∧
      chooseLane (maskOf (octetAt claim5.payload 2)) s = some .l3) ∧ (∀ k c, s.car k = some c → c.origin ≠ 5) ∧
    ((after (.claimNew (ms 1000) claim5) s).band.calls = [grantFrame 5 7 .l3 .a false] ∧
      ((after (.claimNew (ms 1000) claim5) s).car .a).bind Carriage.connectDeadline = some (ms 2000) ∧
      (after (.claimNew (ms 1000) claim5) s).lanes.l3.owner = some (.carriage .a)) :=
  ⟨by decide, (by intro m c h; cases m <;> cases h), by decide⟩

theorem witness_claimsWaitAndLeave :
    let s : State := { busy9 with claims := [entryOf 5 (ms 500), entryOf 6 (ms 600)] }
    (s.inReset = false ∧ chooseModule s = none ∧ s.coc.state = .idle ∧ s.hears (rx 5 9 [7, 6]) ∧
      s.carriageOf 5 7 = none ∧ s.queued 5 7 = true ∧ s.claimOf 5 7 = some (entryOf 5 (ms 500))) ∧
    (after (.waitRefresh (ms 5500) 5 7) s).band.calls = [waitFrame 5 7 1] ∧
    (after (.waitRefresh (ms 5499) 5 7) s).band.calls = [] ∧
    (after (.releaseFromOrigin (ms 1000) (rx 5 9 [7, 5])) s).claims = [entryOf 6 (ms 600)] ∧
    (after (.releaseFromOrigin (ms 1000) (rx 5 9 [7, 6])) s).band.calls = [] ∧
    (after (.releaseRestart (ms 1000) (rx 6 9 [7, 7])) s).claims = [entryOf 5 (ms 500)] ∧
    (after (.queueEntryExpiry (ms 30500) 5 7) s).band.calls = [refuseFrame 5 7 .expired] ∧
    (after (.queueEntryExpiry (ms 30499) 5 7) s).claims.length = 2 := by decide

/-- R73: the head of two waiting claims is granted at a free lane, at the leaving of a head that found no lane, and at the
selection that makes module A grantable. -/
theorem witness_claimsWaitAndLeave_served :
    let rest := [entryOf 6 (ms 600)]
    let l : State := withMod { idle 9 with
      lanes := PerLane.all { freeLane with occupancy := .busy, quietSince := some (ms 700) }
      claims := entryOf 5 (ms 500) :: rest } .a readyMod
    let h : State := { withMod (idle 9) .a readyMod with claims := { entryOf 5 (ms 500) with mask := some 0 } :: rest }
    let m : State := { mod9 (flying .select 214037 { readyMod with state := .selecting, lastScan := some 1 }) with
      claims := entryOf 5 (ms 500) :: rest }
    let u := after (.laneFree (ms 1000) .l3) l
    let v := after (.releaseFromOrigin (ms 1000) (rx 5 9 [7, 5])) h
    let w := after (.selected (ms 1000) .a 214037 0) m
    (l.inReset = false ∧ l.waitsForCandidate = false ∧ (l.mod .b).grantable = false ∧ chooseModule l = some .a ∧
      (l.mod .a).state = .ready ∧ (l.lane .l3).quarantineUntil = none ∧
      chooseLane 63 { l with lanes := l.lanes.set .l3 { l.lane .l3 with occupancy := .free } } = some .l3) ∧
    (h.hears (rx 5 9 [7, 5]) ∧ h.carriageOf 5 7 = none ∧ chooseModule h = some .a ∧ chooseLane 63 h = some .l3) ∧
    ((m.mod .a).link = false ∧ (m.mod .a).pendingOrder = none ∧ codeUsable (m.mod .a).table 214037 = true ∧
      betterNet (m.mod .a).table 214037 (qualityOf (m.mod .a).table 214037) = none ∧ chooseLane 63 m = some .l3) ∧
    (u.band.calls = [grantFrame 5 7 .l3 .a false] ∧ u.claims = rest ∧ u.lanes.l3.owner = some (.carriage .a)) ∧
    (v.band.calls = [grantFrame 6 7 .l3 .a false] ∧ v.claims = []) ∧
    (w.band.calls = [grantFrame 5 7 .l3 .a false] ∧ w.claims = rest ∧ w.modules.a.selected = some 214037) := by decide

/-- R74: the local claim at the head is granted by the selection that makes module A grantable, and dials. -/
theorem witness_claimsWaitAndLeave_servedLocal :
    let s : State := { mod9 (flying .select 214037 { readyMod with state := .selecting, lastScan := some 1 }) with
      claims := [⟨9, 41, true, none, 0, ms 30000, none⟩, entryOf 6 (ms 600)]
      coc := { Origin.reset with
        state := .queued, tag := 41, path := some { kind := .loc, station := 9, module := none, lane := none } } }
    let u := after (.selected (ms 1000) .a 214037 0) s
    (s.coc.state = .queued ∧ s.onLocalPath = true ∧ s.waitsForCandidate = false) ∧
    (u.coc.state = .dialing ∧ u.coc.stage = some .dialing ∧ u.out = [.order .a .dial 0] ∧ u.claims = [entryOf 6 (ms 600)] ∧
      (u.car .a).map Carriage.tried = some [214037] ∧ u.counters.callsGranted = 1) := by decide

/-! ## Carried calls -/

/-- Slot A of station 9 carries the call of station 5, tag 7, on lane 3, from a mask of every lane. -/
def car5 (st : CarriageState) (l : Option Lane) : Carriage :=
  { newCarriage 5 7 .peer (some 63) with state := st, lane := l }

def carried (c : Carriage) (r : Module) : State :=
  { withMod (idle 9) .a { r with link := true } with carriages := { a := some c, b := none } }

theorem witness_connectNotesTheOriginsCheck :
    let s := carried (car5 .granted (some .l3)) readyMod
    let f := rx 5 9 [7, 3, 0]
    s.inReset = false ∧ s.hears f ∧ s.carriageOf 5 7 = some .a ∧ s.car .a = some (car5 .granted (some .l3)) ∧
    (car5 .granted (some .l3)).ownPassed = false ∧ octAt f.payload 1 = laneNumber .l3 ∧
    ((after (.connect (ms 1000) f) s).car .a).map Carriage.originPassed = some true := by decide

/-- The grant on lane 3, its own check passed and carrier heard. -/
def joining (c : Carriage) : State :=
  (ownLane (.carriage .a) (carried { c with ownPassed := true } readyMod)).updLane .l3 fun x => { x with carrierA := true }

/-- The join of a new call and of a rejoin, by the CONNECT that comes second. -/
theorem witness_connectNotesTheOriginsCheck_joins :
    let f := rx 5 9 [7, 3, 0]
    let s := joining (car5 .granted (some .l3))
    let c := { car5 .granted (some .l3) with
      rejoinGrant := true, resume := some .ringing, lastStage := some .ringing, network := some 214037, tried := [214037] }
    let u := after (.connect (ms 1000) f) s
    let v := after (.connect (ms 1000) f) (joining c)
    (s.hears f ∧ s.carriageOf 5 7 = some .a ∧ (s.lane .l3).owner = some (.carriage .a) ∧ (s.lane .l3).carrierA = true ∧
      (s.mod .a).inFlight = none ∧ dialChoice (s.mod .a).table (s.mod .a).selected [] = .dial 214037 ∧ c.answered = false) ∧
    (u.band.calls = [progressFrame 5 7 0 214037] ∧ u.out = [.order .a .dial 0] ∧
      (u.car .a).map Carriage.tried = some [214037] ∧ u.csw.laneTx.l3.base = some (.modRx .a) ∧
      u.csw.modTx.a.holdUntil = some (ms 1600) ∧ u.lanes.l3.supervised = true) ∧
    (v.band.calls = [progressFrame 5 7 2 214037] ∧ (v.car .a).map Carriage.state = some .ringing ∧ v.out = []) := by decide

theorem witness_connectDeadlineRegrants :
    let c := { car5 .granted (some .l3) with connectDeadline := some (ms 1000), regrants := 1 }
    let s := ownLane (.carriage .a) (carried c readyMod)
    s.inReset = false ∧ s.car .a = some c ∧ c.mask = some 63 ∧ c.regrants < 2 ∧ (s.lane .l3).occupancy = .own ∧
    (s.lane .l3).owner = some (.carriage .a) ∧ chooseLane 63 s = some .l4 ∧
    (after (.connectDeadline (ms 1000) .a) s).band.calls = [grantFrame 5 7 .l4 .a false] ∧
    (after (.connectDeadline (ms 1000) .a) s).lanes.l3.quarantineUntil = some (ms 11000) ∧
    ((after (.connectDeadline (ms 1000) .a) s).car .a).map Carriage.regrants = some 2 := by decide

theorem witness_ringLimitHangsUp :
    let c := { car5 .ringing (some .l3) with ringDeadline := some (ms 1000), network := some 214037 }
    let s := carried c { readyMod with state := .ringing, callInProgress := true }
    s.inReset = false ∧ s.car .a = some c ∧ (s.mod .a).link = true ∧
    (after (.ringDeadline (ms 1000) .a) s).modules.a.state = .hangingUp ∧
    (after (.ringDeadline (ms 1000) .a) s).modules.a.table.map Net.penalisedUntil = [some (ms 61000), none] := by decide

theorem witness_rejoinWindowEnds :
    let c := { car5 .awaitRejoin none with rejoinDeadline := some (ms 1000), resume := some .connected }
    let s := carried c { readyMod with state := .inCall, callInProgress := true }
    s.inReset = false ∧ s.car .a = some c ∧ c.lane = none ∧ (s.mod .a).callInProgress = true ∧
    (s.mod .a).flying .hangup = false ∧
    ((after (.rejoinDeadline (ms 1000) .a) s).car .a).map Carriage.state = some .clearing ∧
    (after (.rejoinDeadline (ms 1000) .a) s).out = [.order .a .hangup 0] := by decide

/-- R94: the window ends in a rejoin GRANTED on lane 3, with a HANGUP in flight, and with no call in progress. -/
theorem witness_rejoinWindowEnds_granted :
    let c := { car5 .granted (some .l3) with rejoinGrant := true, rejoinDeadline := some (ms 1000), resume := some .ringing }
    let at_ := fun (c : Carriage) (r : Module) =>
      after (.rejoinDeadline (ms 1000) .a) (ownLane (.carriage .a) (carried c r))
    let dials := { readyMod with state := .dialing, callInProgress := true }
    let hangs := flying .hangup 0 { readyMod with state := .hangingUp, callInProgress := true }
    let u := at_ c dials
    let h := at_ c hangs
    let n := at_ c readyMod
    ((carried c readyMod).calm ∧ (carried c readyMod).modules.a.callInProgress = false ∧
      ((carried c hangs).mod .a).flying .hangup = true) ∧
    (u.band.calls = [releaseFrame 5 7 .laneLost] ∧ u.lanes.l3.owner = none ∧ u.out = [.order .a .hangup 0] ∧
      (u.car .a).map Carriage.state = some .clearing) ∧
    (h.out = [] ∧ (h.car .a).map Carriage.state = some .clearing ∧ h.band.calls = [releaseFrame 5 7 .laneLost]) ∧
    (n.car .a = none ∧ n.modules.a.link = false ∧ n.out = [] ∧ n.band.calls = [releaseFrame 5 7 .laneLost]) := by decide

theorem witness_rejoinIsGranted :
    let s := carried (car5 .awaitRejoin none) readyMod
    let f := rx 5 9 [7, 1, 23]
    s.inReset = false ∧ s.hears f ∧ s.svc.test = none ∧ s.carriageOf 5 7 = some .a ∧
    chooseLane (maskOf (octetAt f.payload 2)) s = some .l3 ∧
    (after (.claimRejoin (ms 1000) f) s).band.calls = [grantFrame 5 7 .l3 .a true] := by decide

/-! ## Radio Module Controller -/

theorem witness_moduleReports :
    let p := mod9 { Module.absent with fitted := true, power := true, state := .powering, powerCycles := 2, timeouts := 1 }
    let d := mod9 (flying .dial 0 { readyMod with state := .dialing, link := true })
    let a := mod9 (flying .abort 0 { readyMod with state := .refreshing, link := true })
    let q := mod9 { readyMod with link := true }
    (p.inReset = false ∧ (p.mod .a).power = true ∧ (d.mod .a).flying .dial = true ∧ (a.mod .a).flying .abort = true ∧
      netOf (q.mod .a).table 214037 ≠ none) ∧
    (after (.ready (ms 1000) .a) p).out = [.order .a .scan 0] ∧ (after (.ready (ms 1000) .a) p).modules.a.powerCycles = 0 ∧
    (after (.accepted (ms 1000) .a) d).modules.a.progressDeadline = some (ms 61000) ∧
    (after (.aborted (ms 1000) .a) a).modules.a.state = .ready ∧
    ((after (.quality (ms 1000) .a 40) q).modules.a.table.map Net.code = [307110, 214037] ∧
      (after (.quality (ms 1000) .a 64) q).modules.a.table.map Net.quality = [63, 47]) := by decide

/-- R99: noise before a start octet, a SELECTED, a message of no kind, and one that stops. -/
theorem witness_moduleReports_link :
    let p := mod9 { readyMod with link := true }
    let off := mod9 { readyMod with power := false }
    let since := fun (t : Time) => mod9 { readyMod with link := true, poweredAt := t }
    let bad := heard (ms 980) [170, 16, 1, 9]
    let noise := heard (ms 979) [3, 16]
    let short := heard (ms 980) [170, 23, 1]
    let good := heard (ms 980) [170, 25, 1, 40]
    (linkEvents .hunting 0 (ms 1000) (noise ++ bad) = [.discarded] ∧ linkEvents .hunting 0 (ms 1000) short = [.discarded] ∧
      linkEvents .hunting 0 (ms 1000 - 1) short = [] ∧ linkEvents .hunting 0 (ms 1000) good = [.report (.quality 40)] ∧
      linkEvents .hunting 0 (ms 1000) (heard 0 [170, 18] ++ heard (ms 20) [4, 3, 68, 21, 0]) =
        [.report (.selected 214037 0)] ∧
      linkEvents .hunting 0 (ms 1000) (heard 0 [170, 18] ++ heard (ms 20 + 1) [4, 170, 16, 0]) = [.discarded, .report .ready]) ∧
    ((p.mod .a).power = true ∧ (off.mod .a).power = false) ∧
    (after (.linkMessageDiscarded (ms 1000) .a noise bad) p).modules.a.linkErrors = 1 ∧
    (after (.linkMessageDiscarded (ms 1000) .a noise bad) (since (ms 980))).modules.a.linkErrors = 1 ∧
    (after (.linkMessageDiscarded (ms 1000) .a noise bad) (since (ms 980 + 1))).modules.a.linkErrors = 0 ∧
    (after (.linkMessageTimeout (ms 1000) .a (heard (ms 970) [170, 16] ++ heard (ms 980) [0, 9])) (since (ms 975))).modules.a.linkErrors
      = 0 ∧
    (after (.powerOnTime (ms 1000) .a)
      (mod9 { readyMod with power := false, state := .fault, powerOnTime := some (ms 1000) })).modules.a.poweredAt = ms 1000 ∧
    (after (.linkMessageTimeout (ms 1000) .a short) p).modules.a.linkErrors = 1 ∧
    (after (.linkMessageTimeout (ms 1000) .a short) off).modules.a.linkErrors = 0 ∧
    (after (.linkMessageDiscarded (ms 1000) .a noise good) p).modules.a.table.map Net.code = [307110, 214037] := by decide

/-- 06, the refresh of "A refresh scan and a reselection", 300,000 ms after the last scan. -/
theorem witness_moduleTimes :
    let n := mod9 { readyMod with state := .noService, rescanDue := some (ms 1000) }
    let r := mod9 { readyMod with lastScan := some (ms 300000) }
    let d := mod9 { readyMod with state := .dialing, link := true, progressDeadline := some (ms 1000) }
    let p := mod9 { readyMod with link := true, table := [⟨307110, 47, false, some (ms 612000)⟩] }
    ((r.mod .a).state = .ready ∧ (r.mod .a).link = false ∧ (r.mod .a).inFlight = none ∧ r.supply.state ≠ .low ∧
      netOf (p.mod .a).table 307110 = some ⟨307110, 47, false, some (ms 612000)⟩) ∧
    (after (.rescanDue (ms 1000) .a) n).modules.a.state = .scanning ∧
    (after (.refreshDue (ms 600000) .a) r).modules.a.state = .refreshing ∧
    (after (.refreshDue (ms 600000 - 1) .a) r).modules.a.state = .ready ∧
    (after (.progressDeadline (ms 1000) .a) d).out = [.order .a .hangup 0] ∧
    (after (.penaltyEnd (ms 612000) .a 307110) p).modules.a.table.map Net.penalisedUntil = [none] ∧
    (after (.penaltyEnd (ms 612000 - 1) .a 307110) p).modules.a.table.map Net.penalisedUntil = [some (ms 612000)] := by decide

def reported : List ScanEntry :=
  [⟨214037, 52, 0⟩, ⟨307110, 47, 0⟩, ⟨500220, 20, 0⟩, ⟨118400, 70, 0⟩, ⟨307110, 44, 0⟩, ⟨640015, 33, 1⟩,
   ⟨221900, 33, 0⟩, ⟨812004, 12, 0⟩, ⟨903550, 9, 0⟩, ⟨415006, 5, 0⟩, ⟨730118, 2, 0⟩]

set_option maxRecDepth 8000 in
/-- 06, "A refresh scan and a reselection": the new table, and SELECT 118,400. -/
theorem test_refresh_scan :
    let r := flying .scan 0
      { readyMod with
        state := .refreshing, lastScan := some (ms 600000),
        table := [net 214037 52, ⟨307110, 47, false, some (ms 612000)⟩, net 500220 20] }
    let u := after (.scanList (ms 604300) .a reported) (mod9 r)
    u.modules.a.table =
      [net 118400 63, net 214037 52, ⟨307110, 47, false, some (ms 612000)⟩, net 221900 33, ⟨640015, 33, true, none⟩,
       net 500220 20, net 812004 12, net 903550 9] ∧
    u.modules.a.state = .selecting ∧ u.out = [.order .a .select 118400] ∧
    (after (.selected (ms 605100) .a 118400 0) u).modules.a.state = .ready ∧
    (after (.selected (ms 605100) .a 118400 0) u).modules.a.selected = some 118400 := by decide

/-- R114: a late SCAN-LIST ends the abort, and its entries are discarded. -/
theorem test_late_scan_list :
    let a := mod9 (flying .abort 0 { readyMod with state := .refreshing, link := true })
    (after (.scanList (ms 1000) .a [⟨500220, 60, 0⟩]) a).modules.a.state = .ready ∧
    (after (.scanList (ms 1000) .a [⟨500220, 60, 0⟩]) a).modules.a.table = (a.mod .a).table := by decide

theorem witness_scanAndSelectionEnd :
    let s := mod9 (flying .scan 0 { readyMod with state := .scanning, selected := none })
    let l := mod9 (flying .select 214037 { readyMod with state := .selecting, link := true })
    let i := mod9 (flying .select 214037 { readyMod with state := .selecting, lastScan := some 1 })
    (s.inReset = false ∧ (s.mod .a).flying .scan = true ∧ (s.mod .a).pendingOrder = none ∧
      firstUsable (scanTable [⟨214037, 52, 0⟩] (s.mod .a).table) = some 214037 ∧
      firstUsable (scanTable [⟨214037, 52, 1⟩] (s.mod .a).table) = none) ∧
    (i.calm ∧ codeUsable (i.mod .a).table 214037 = true ∧
      betterNet (i.mod .a).table 214037 (qualityOf (i.mod .a).table 214037) = none ∧ ms 300000 < 1 + ms 300000) ∧
    (after (.scanList (ms 1000) .a [⟨214037, 52, 0⟩]) s).out = [.order .a .select 214037] ∧
    (after (.scanList (ms 1000) .a [⟨214037, 52, 1⟩]) s).modules.a.rescanDue = some (ms 31000) ∧
    (after (.selected (ms 1000) .a 214037 0) l).out = [.order .a .dial 0] ∧
    (after (.selected (ms 300000) .a 214037 0) i).modules.a.state = .ready := by decide

theorem witness_callProgressIsReported :
    let c := { car5 .dialing (some .l3) with network := some 214037 }
    let s := carried c { readyMod with state := .dialing, callInProgress := true }
    (s.inReset = false ∧ s.car .a = some c ∧ c.kind = .peer ∧ c.ringHangup = false ∧ (s.mod .a).power = true ∧
      (s.mod .a).link = true ∧ s.csw.ident.running = none ∧ s.csw.players.get (modPlayer .a) = Player.idle) ∧
    (after (.ringing (ms 1000) .a) s).band.calls = [progressFrame 5 7 2 214037] ∧
    ((after (.ringing (ms 1000) .a) s).car .a).bind Carriage.ringDeadline = some (ms 61000) ∧
    (after (.answered (ms 1000) .a) s).band.calls = [progressFrame 5 7 3 214037] ∧
    (after (.answered (ms 1000) .a) s).csw.ident.running = some ⟨.a, 47, 5, 9⟩ := by decide

theorem witness_callEndsAreReported :
    let c := { car5 .dialing none with tried := [1, 2, 3], network := some 3 }
    let d := carried c (flying .dial 0 { readyMod with state := .dialing, callInProgress := true })
    let r := carried { c with state := .ringing } { readyMod with state := .ringing, callInProgress := true }
    let t := carried { c with state := .awaitRejoin } { readyMod with state := .inCall, callInProgress := true }
    (d.inReset = false ∧ d.calm ∧ r.calm ∧ t.calm ∧ (d.mod .a).power = true ∧ (d.mod .a).link = true ∧ c.lane = none ∧
      c.tried.length = 3 ∧ (d.mod .a).flying .dial = true) ∧
    (let x := ownLane (.carriage .a) (carried { c with lane := some .l3 } (flying .dial 0 { readyMod with state := .dialing }))
     (x.lane .l3).occupancy = .own ∧ (x.lane .l3).owner = some (.carriage .a) ∧
       (after (.rejected (ms 1000) .a) x).lanes.l3 =
         { freeLane with occupancy := .busy, quietSince := some (ms 1000) }) ∧
    (after (.rejected (ms 1000) .a) d).band.calls = [releaseFrame 5 7 .allNetworksFailed] ∧
    (after (.ended (ms 1000) .a 0) r).band.calls = [releaseFrame 5 7 .allNetworksFailed] ∧
    (after (.ended (ms 1000) .a 1) t).band.calls = [releaseFrame 5 7 .farClear] ∧
    (after (.ended (ms 1000) .a 1) t).modules.a.link = false := by decide

/-- R87: a failed first attempt. 214,037 is penalised until 61,000 ms; the next network is selected, or dialled where it is the
selected one, or there is none. -/
theorem witness_callEndsAreReported_failover :
    let c := { car5 .ringing none with tried := [214037], network := some 214037 }
    let at_ := fun (r : Module) => carried c (flying .dial 0 { r with state := .ringing, callInProgress := true })
    let one : Module := { readyMod with table := [net 214037 52] }
    let table : List Net := [{ net 214037 52 with penalisedUntil := some (ms 61000) }, net 307110 47]
    let u := after (.rejected (ms 1000) .a) (at_ readyMod)
    let v := after (.ended (ms 1000) .a 2) (at_ { readyMod with selected := some 307110 })
    let w := after (.rejected (ms 1000) .a) (at_ one)
    ((at_ readyMod).calm ∧ ((at_ readyMod).mod .a).power = true ∧ ((at_ readyMod).mod .a).link = true ∧
      penaliseNet readyMod.table 214037 (ms 61000) = table) ∧
    (dialChoice table (some 214037) c.tried = .select 307110 ∧ dialChoice table (some 307110) c.tried = .dial 307110 ∧
      dialChoice (penaliseNet one.table 214037 (ms 61000)) (some 214037) c.tried = .impossible) ∧
    (u.band.calls = [progressFrame 5 7 1 307110] ∧ u.out = [.order .a .select 307110] ∧ u.modules.a.table = table ∧
      (u.car .a).map Carriage.state = some .dialing) ∧
    (v.band.calls = [progressFrame 5 7 1 307110] ∧ v.out = [.order .a .dial 0] ∧
      (v.car .a).map Carriage.tried = some [214037, 307110]) ∧
    (w.band.calls = [releaseFrame 5 7 .allNetworksFailed] ∧ w.car .a = none) := by decide

/-- R89, R97: the network drops an answered call, and the origin gives one up; a HANGUP is ordered, also beside one in flight. -/
theorem witness_callEndsAreReported_dropped :
    let c := { car5 .connected none with tried := [214037], network := some 214037, answered := true }
    let talks := { readyMod with state := .inCall, callInProgress := true }
    let s := carried c talks
    let h := carried c (flying .hangup 0 { talks with state := .hangingUp })
    let f := rx 5 9 [7, 6]
    let d := after (.ended (ms 1000) .a 2) s
    let u := after (.releaseFromOrigin (ms 1000) f) s
    let v := after (.releaseFromOrigin (ms 1000) f) h
    let n := after (.releaseFromOrigin (ms 1000) f) (carried c readyMod)
    (s.calm ∧ s.hears f ∧ s.carriageOf 5 7 = some .a ∧ (s.mod .a).callInProgress = true ∧ (s.mod .a).state = .inCall) ∧
    (d.band.calls = [releaseFrame 5 7 .netDrop] ∧ d.modules.a.table.map Net.penalisedUntil = [some (ms 61000), none]) ∧
    (u.out = [.order .a .hangup 0] ∧ u.car .a = none ∧ u.modules.a.state = .hangingUp ∧ u.band.calls = []) ∧
    (v.out = [.order .a .hangup 0] ∧ v.modules.a.inFlight.map OrderInFlight.deadline = some (ms 6000)) ∧
    (n.out = [] ∧ n.car .a = none ∧ n.modules.a.link = false) := by decide

/-- 06, "A module that stops answering": the third timeout, the powering deadline and the power-on after DISABLED. -/
theorem witness_modulesArePowerCycled :
    let third := fun k => mod9 { flying k 214037 readyMod with timeouts := 2 }
    let p := mod9 { readyMod with state := .powering, powerCycles := 2, poweringDeadline := some (ms 552000) }
    let o := mod9 { readyMod with state := .disabled, power := false, powerCycles := 3, powerOnTime := some (ms 1152000) }
    let f := mod9 { readyMod with state := .fault, power := false, powerCycles := 1, powerOnTime := some (ms 521000) }
    (after (.ready (ms 510000) .a) (mod9 readyMod)).modules.a.powerOnTime = some (ms 511000) ∧
    ((mod9 readyMod).inReset = false ∧ ((third .scan).mod .a).link = false ∧ (p.mod .a).poweringDeadline = some (ms 552000)) ∧
    (after (.fault (ms 510000) .a) (mod9 readyMod)).counters.moduleFaults = 1 ∧
    (after (.scanTimeout (ms 520000) .a) (third .scan)).modules.a.powerOnTime = some (ms 521000) ∧
    (after (.selectTimeout (ms 1000) .a) (third .select)).modules.a.state = .fault ∧
    (after (.dialTimeout (ms 1000) .a) (third .dial)).modules.a.state = .fault ∧
    (after (.abortTimeout (ms 1000) .a) (third .abort)).modules.a.state = .fault ∧
    (after (.hangupTimeout (ms 1000) .a) (mod9 (flying .hangup 0 readyMod))).modules.a.power = false ∧
    (after (.poweringDeadline (ms 552000) .a) p).modules.a.state = .disabled ∧
    (after (.poweringDeadline (ms 552000) .a) p).modules.a.powerOnTime = some (ms 1152000) ∧
    (after (.powerOnTime (ms 1152000) .a) o).modules.a.powerCycles = 0 ∧
    (after (.powerOnTime (ms 521000) .a) f).modules.a.powerCycles = 1 ∧
    (after (.powerOnTime (ms 521000) .a) f).modules.a.poweringDeadline = some (ms 536000) := by decide

/-- R93: the fault of a module that carries a call of station 5 on lane 3, and of one whose record is CLEARING. -/
theorem witness_modulesArePowerCycled_peer :
    let s := fun (st : CarriageState) => ownLane (.carriage .a) (carried (car5 st (some .l3)) readyMod)
    let u := after (.fault (ms 1000) .a) (s .connected)
    let v := after (.fault (ms 1000) .a) (s .clearing)
    ((s .connected).calm ∧ ((s .connected).mod .a).power = true ∧ ((s .connected).mod .a).link = true ∧
      (s .connected).car .a = some (car5 .connected (some .l3)) ∧ ((s .connected).lane .l3).owner = some (.carriage .a)) ∧
    (u.band.calls = [releaseFrame 5 7 .moduleFault] ∧ u.car .a = none ∧ u.modules.a.link = false ∧
      u.lanes.l3.owner = none ∧ u.modules.a.state = .fault) ∧
    (v.band.calls = [] ∧ v.car .a = none ∧ v.lanes.l3.owner = none) := by decide

/-- R47, R93: the fault ends a LOCAL call; unanswered, its station is avoided, and answered, a fresh search begins. -/
theorem witness_modulesArePowerCycled_local :
    let s := fun (answered : Bool) => { mod9 { readyMod with link := true } with
      coc := { Origin.reset with
        state := .dialing, tag := 41, tagCounter := 41, answered := answered,
        path := some { kind := .loc, station := 9, module := some .a, lane := none } }
      carriages := { a := some (newCarriage 9 41 .loc none), b := none } }
    let u := after (.fault (ms 1000) .a) (s false)
    let v := after (.fault (ms 1000) .a) (s true)
    ((s false).claims = [] ∧ (s false).offerTable = [] ∧ ((s false).mod .b).usableAsPath = false ∧ (s false).own = 9) ∧
    (u.car .a = none ∧ u.coc.state = .seeking ∧ u.coc.tag = 41 ∧ u.coc.avoid = [⟨9, ms 1000⟩] ∧
      u.coc.retryTime = some (ms 3000) ∧ u.band.calls = []) ∧
    (v.coc.state = .seeking ∧ v.coc.tag = 42 ∧ v.coc.avoid = [] ∧ v.coc.recoveries = 1) := by decide

theorem witness_orderTimeoutsBelowTheThird :
    let second := fun k r => mod9 { flying k 214037 r with timeouts := 1 }
    let one := { readyMod with state := .selecting, table := [net 214037 52] }
    ((second .scan readyMod).inReset = false ∧ ((second .scan readyMod).mod .a).timeouts < 2 ∧
      firstUsable (penaliseNet one.table 214037 (ms 61000)) = none ∧ one.power = true) ∧
    (after (.scanTimeout (ms 1000) .a) (second .scan readyMod)).modules.a.table = [] ∧
    (after (.scanTimeout (ms 1000 - 1) .a) { (second .scan readyMod) with now := 0 }).modules.a.table.length = 2 ∧
    (after (.selectTimeout (ms 1000) .a) (second .select one)).modules.a.state = .noService ∧
    (after (.dialTimeout (ms 1000) .a) (second .dial readyMod)).out = [.order .a .hangup 0] ∧
    (after (.abortTimeout (ms 1000) .a) (second .abort { readyMod with link := true })).modules.a.state = .ready := by decide

/-! ## Lane Controller -/

theorem witness_carrierAndTimeMoveTheLane :
    let s := idle 9
    let b := s.updLane .l3 fun x => { x with occupancy := .busy, carrierB := true, quietSince := none }
    let q := s.updLane .l3 fun x => { x with occupancy := .busy, quietSince := some (ms 700), quarantineUntil := some (ms 1000) }
    (s.inReset = false ∧ (s.lane .l3).occupancy ≠ .own ∧ (s.lane .l3).owner = none ∧ s.calm ∧ (b.lane .l3).heard .b = true) ∧
    (∀ e, (s.engine e).lane ≠ some .l3) ∧
    (after (.carrierHeard (ms 1000) .l3 .a) s).lanes.l3.occupancy = .busy ∧
    (after (.carrierNotHeard (ms 1000) .l3 .b) b).lanes.l3.quietSince = some (ms 1000) ∧
    (after (.laneFree (ms 1000) .l3) q).lanes.l3.occupancy = .free ∧
    (after (.laneFree (ms 1000 - 1) .l3) { q with now := 0 }).lanes.l3.occupancy = .busy ∧
    (after (.quarantineEnd (ms 1000) .l3) q).lanes.l3.quarantineUntil = none ∧
    (after (.quarantineEnd (ms 1000 - 1) .l3) { q with now := 0 }).lanes.l3.quarantineUntil = some (ms 1000) :=
  ⟨by decide, (by intro e; cases e <;> decide), by decide, by decide, by decide, by decide, by decide, by decide⟩

/-- Station 9's answered call of tag 41 on lane 3, supervised; carrier B heard, or in a gap since this time. -/
def onLane3 (gap : Option Time) : State :=
  (ownLane .origin (coc9 (fun c => { c with answered := true }) .connected (some .l3))).updLane .l3 fun x =>
    { x with supervised := true, carrierB := gap.isNone, gapStart := gap }

theorem witness_gapsOfASupervisedLane :
    let s := onLane3 none
    let g := onLane3 (some (ms 600))
    (s.inReset = false ∧ (s.lane .l3).occupancy = .own ∧ (s.lane .l3).owner = some .origin ∧ (s.lane .l3).supervised = true ∧
      s.svc.test = none ∧ (s.lane .l3).carrierB = true ∧ (g.lane .l3).carrierB = false) ∧ g.coc.onLane 2 .l3 ∧
    ((after (.carrierNotHeard (ms 1000) .l3 .b) s).csw.gapB.l3 = true ∧
      (after (.carrierHeard (ms 1000) .l3 .b) g).coc.dropouts = 1 ∧
      (after (.laneLoss (ms 1000) .l3) g).coc.state = .recovering ∧
      (after (.laneLoss (ms 1000) .l3) g).band.calls = [claimFrame 2 41 .rejoin 0b111011] ∧
      (after (.laneLoss (ms 1000 - 1) .l3) { g with now := 0 }).coc.state = .connected) :=
  ⟨by decide, ⟨some .a, rfl⟩, by decide⟩

/-- R92, R93: a dropout and a lane loss of a carriage, on half A. -/
theorem witness_gapsOfASupervisedLane_carriage :
    let on := fun (gap : Option Time) => (ownLane (.carriage .a) (carried (car5 .connected (some .l3)) readyMod)).updLane .l3 fun x =>
      { x with supervised := true, carrierA := gap.isNone, gapStart := gap }
    let g := on (some (ms 600))
    let u := after (.laneLoss (ms 1000) .l3) g
    (g.inReset = false ∧ g.car .a = some (car5 .connected (some .l3)) ∧ (g.lane .l3).supervised = true ∧
      CarriageState.connected = ResumeState.connected.state ∧ (g.csw.modTx.get .a).overlay ≠ some .ident) ∧
    ((after (.carrierNotHeard (ms 1000) .l3 .a) (on none)).csw.gapA.l3 = true ∧
      ((after (.carrierHeard (ms 1000) .l3 .a) g).car .a).map Carriage.dropouts = some 1 ∧
      (after (.laneLoss (ms 1000 - 1) .l3) { g with now := 0 }).carriages = g.carriages) ∧
    ((u.car .a).map Carriage.state = some .awaitRejoin ∧ (u.car .a).bind Carriage.rejoinDeadline = some (ms 21000) ∧
      u.lanes.l3.owner = none ∧ u.csw.players.a.prompt = some .holdLine ∧ u.counters.laneLosses = 1) := by decide

/-- The probe of station 9's origin record on lane 3, its checker as given. -/
def probing9 (f : Engine → Engine) : State :=
  (startEngine .origin .l3 2345 true true (ownLane .origin (origin9 .probing (some .l3)))).updEngine .e0 f

/-- Edges of both clocks in turn, a local one first, then the local ones that are left. -/
def edges (local_ received : Nat) : List ClockEdge :=
  (List.replicate received [.ownBit, .receivedBit]).flatten ++ List.replicate (local_ - received) .ownBit

/-- The word the checker of a probe expects next, with these bits inverted. -/
def wordIn (s : State) (flip : BitVec 32) (local_ received : Nat) : WordIn :=
  ⟨.e0, (nextWord s.engines.e0.predictor).1 ^^^ flip, 0, edges local_ received⟩

theorem witness_enginesFollowTimes :
    let r := probing9 id
    let s := probing9 fun x => { x with settleFrom := some (ms 960) }
    let g := probing9 fun x => { x with checker := .check, compared := 438, gapFrom := some (ms 960) }
    (r.inReset = false ∧ (r.engine .e0).user ≠ some .laneTest ∧ (r.engine .e0).generator = .running ∧
      (r.engine .e0).checker ≠ .ended ∧ (s.engine .e0).checker = .settle) ∧
    (after (.generatorDone (ms 1600) .e0) r).engines.e0.generator = .done ∧
    (after (.generatorDone (ms 1600 - 1) .e0) r).engines.e0.generator = .running ∧
    (after (.settleEnd (ms 1000) .e0) s).engines.e0.checker = .seek ∧
    (after (.settleEnd (ms 1000) .e0) s).engines.e0.seekFrom = some (ms 1000) ∧
    (after (.settleEnd (ms 1000 - 1) .e0) { s with now := 0 }).engines.e0.checker = .settle ∧
    (after (.checkerGapReset (ms 1000) .e0) g).engines.e0.compared = 0 ∧
    (after (.checkerGapReset (ms 1000 - 1) .e0) { g with now := 0 }).engines.e0.compared = 438 := by decide

set_option maxRecDepth 8000 in
theorem witness_enginesFollowWords :
    let k := probing9 fun x => { x with checker := .seek }
    let s := probing9 fun x => { x with checker := .steady, predictor := 2345, steady := 14, restarts := 6 }
    let l := probing9 fun x => { x with checker := .steady, predictor := 2345, steady := 15 }
    let c := probing9 fun x => { x with checker := .check, predictor := 2345, compared := 1022, errors := 7 }
    ((k.engine .e0).checker = .seek ∧ (k.engine .e0).seekLoaded = false ∧ (s.engine .e0).wordErrors (wordIn s 0 32 32) = 0 ∧
      (s.engine .e0).wordErrors (wordIn s 5 32 32) = 2 ∧ (s.engine .e0).lastWord = none) ∧
    (after (.probeWordReceived (ms 1000) (.word (wordIn l 0 32 32))) k).engines.e0.predictor = (nextWord 2345).2 ∧
    (after (.probeWordReceived (ms 1000) (.word (wordIn s 0 32 32))) s).engines.e0.steady = 15 ∧
    (after (.steadyReached (ms 1000) (wordIn l 0 32 32)) l).engines.e0.checker = .check ∧
    (after (.probeWordReceived (ms 1000) (.word (wordIn s 5 32 32))) s).engines.e0.restarts = 7 ∧
    (after (.probeWordReceived (ms 1000) (.word (wordIn c 1 34 32))) c).engines.e0.errors = 8 ∧
    (after (.probeWordReceived (ms 1000) (.word (wordIn c 1 34 32))) c).engines.e0.compare = 2 := by decide

/-- R132 and 7.4, with SETTLE ended at 1,000 ms: the word that began then, as word 160 in the example of 12 does, is loaded at its
end 0.25 ms later; one that ends before that was partly on the line and is passed over. -/
theorem witness_enginesFollowWords_next_whole_word :
    let k := probing9 fun x => { x with checker := .seek, seekFrom := some (ms 1000) }
    let part := after (.probeWordReceived (ms 1000 + 23) (.word ⟨.e0, 5, 0, []⟩)) k
    let whole := after (.probeWordReceived (ms 1000 + 24) (.word ⟨.e0, 5, 0, []⟩)) k
    ((k.engine .e0).checker = .seek ∧ (k.engine .e0).seekLoaded = false ∧ max k.now (ms 1000 + 23) < ms 1000 + wordTime ∧
      ms 1000 + wordTime ≤ max k.now (ms 1000 + 24)) ∧
    (part.engines = k.engines ∧ whole.engines.e0.seekLoaded = true ∧ whole.engines.e0.seekFrom = none) := by decide

/-- R136: bit clocks count one by one in CHECK while carrier is heard, up to 127; not in STEADY, and not without carrier. -/
theorem witness_enginesFollowWords_clocks :
    let heard := fun (f : Engine → Engine) => (probing9 f).updLane .l3 fun y => { y with carrierB := true }
    let c := heard fun x => { x with checker := .check, compare := 126 }
    let q := probing9 fun x => { x with checker := .check, compare := 126 }
    let s := heard fun x => { x with checker := .steady, compare := 126 }
    let came := Instr.probeWordReceived (ms 1000) (.clocks .e0 [.ownBit, .ownBit, .receivedBit])
    ((c.engine .e0).lane = some .l3 ∧ (c.engine .e0).receiveHalf = some .b ∧ (c.engine .e0).checker = .check ∧
      (c.lane .l3).heard .b = true ∧ (q.lane .l3).heard .b = false ∧ (s.engine .e0).checker ≠ .check) ∧
    ((after came c).engines.e0.compare = 126 ∧ (after came q).engines = q.engines ∧ (after came s).engines = s.engines) := by
  decide

set_option maxRecDepth 8000 in
/-- R133: a wrong word framed in a gap that began at 985 ms in STEADY brings SEEK, and the gap's 40 ms then SETTLE. -/
theorem witness_enginesFollowWords_in_a_gap :
    let s := probing9 fun x => { x with checker := .steady, predictor := 2345, gapFrom := some (ms 985) }
    let k := after (.probeWordReceived (ms 1000) (.word (wordIn s 1 32 32))) s
    let u := after (.checkerGapReset (ms 1025) .e0) k
    (k.engines.e0.checker = .seek ∧ k.engines.e0.gapFrom = some (ms 985) ∧ k.engines.e0.restarts = 1) ∧
    (u.engines.e0.checker = .settle ∧ u.engines.e0.gapFrom = none ∧ u.engines.e0.restarts = 1) ∧
    (after (.checkerGapReset (ms 1025 - 1) .e0) k).engines.e0.checker = .seek := by decide

set_option maxRecDepth 8000 in
theorem witness_failedProbeIsReported :
    let w := fun s => wordIn s 0 32 32
    let k := probing9 fun x => { x with checker := .steady, predictor := 2345, run := 6, lastWord := some (nextWord 2345).1 }
    let n := probing9 fun x => { x with checker := .steady, predictor := 2345, restarts := 7 }
    (k.inReset = false ∧ k.coc.state = .probing ∧ (k.lane .l3).occupancy = .own ∧ (k.lane .l3).owner = some .origin ∧
      (k.engine .e0).user = some .origin ∧ (k.engine .e0).lane = some .l3 ∧ (k.engine .e0).lastWord = some (w k).word ∧
      (n.engine .e0).wordErrors (wordIn n 1 32 32) ≠ 0 ∧ (k.engine .e0).checking = true) ∧ k.coc.onLane 2 .l3 ∧
    ((after (.stuck (ms 1000) (w k)) k).band.calls = [connectFrame 2 41 .l3 .stuck] ∧
      (after (.nosync (ms 1000) (wordIn n 1 32 32)) n).band.calls = [connectFrame 2 41 .l3 .nosync] ∧
      (after (.probeTimeout (ms 1600) .e0) k).band.calls = [connectFrame 2 41 .l3 .timeout] ∧
      (after (.probeTimeout (ms 1600 - 1) .e0) k).coc.regrantWait = none ∧
      (after (.probeTimeout (ms 1600) .e0) k).coc.regrantWait = some (ms 3600)) :=
  ⟨by decide, ⟨some .a, rfl⟩, by decide⟩

set_option maxRecDepth 8000 in
/-- The limits of R137: 8 errors and a compare of 16 pass; one more of either does not. -/
theorem witness_passedProbeIsReported :
    let s := fun (e : BitVec 16) => probing9 fun x =>
      { x with checker := .check, predictor := 2345, compared := 1023, errors := e, compare := 15 }
    let c := { car5 .granted (some .l3) with connectDeadline := some (ms 1000) }
    let u := (startEngine (.carriage .a) .l3 1287 true true (carried c readyMod)).updEngine .e1 fun x =>
      { x with checker := .check, predictor := 1287, compared := 1023 }
    ((s 8).inReset = false ∧ (s 8).coc.state = .probing ∧ ((s 8).lane .l3).owner = some .origin ∧
      satAdd (7 : BitVec 16) (((s 7).engine .e0).wordErrors (wordIn (s 7) 1 33 32)) = 8 ∧ clockCompare 15 (edges 33 32) = 16 ∧
      (u.engine .e1).user = some (.carriage .a) ∧ u.car .a = some c) ∧ (s 8).coc.onLane 2 .l3 ∧
    ((after (.checkComplete (ms 1000) (wordIn (s 7) 1 33 32)) (s 7)).coc.state = .dialing ∧
      (after (.checkComplete (ms 1000) (wordIn (s 7) 1 33 32)) (s 7)).band.calls = [connectFrame 2 41 .l3 .pass] ∧
      (after (.checkComplete (ms 1000) (wordIn (s 8) 1 33 32)) (s 8)).band.calls = [connectFrame 2 41 .l3 .errors] ∧
      (after (.checkComplete (ms 1000) (wordIn (s 7) 1 34 32)) (s 7)).band.calls = [connectFrame 2 41 .l3 .drift] ∧
      ((after (.checkComplete (ms 1000) ⟨.e1, (nextWord 1287).1, 0, edges 32 32⟩) u).car .a).map Carriage.ownPassed
        = some true) :=
  ⟨by decide, ⟨some .a, rfl⟩, by decide⟩

set_option maxRecDepth 8000 in
/-- The join of a new call by the own check that comes second. -/
theorem witness_passedProbeIsReported_joins :
    let c := { car5 .granted (some .l3) with originPassed := true }
    let s := ((startEngine (.carriage .a) .l3 1287 true true (ownLane (.carriage .a) (carried c readyMod))).updEngine .e1 fun x =>
      { x with checker := .check, predictor := 1287, compared := 1023 }).updLane .l3 fun x => { x with carrierA := true }
    let u := after (.checkComplete (ms 1000) ⟨.e1, (nextWord 1287).1, 0, edges 32 32⟩) s
    (s.car .a = some c ∧ (s.engine .e1).user = some (.carriage .a) ∧ (s.lane .l3).owner = some (.carriage .a) ∧
      (s.mod .a).inFlight = none) ∧
    (u.band.calls = [progressFrame 5 7 0 214037] ∧ u.out = [.order .a .dial 0] ∧ u.lanes.l3.supervised = true ∧
      (u.car .a).map Carriage.state = some .dialing) := by decide

/-- The half a lane's owner drives sends the pattern while its generator runs, then the switch's stream; the other half nothing. -/
theorem witness_holdsAndPromptsEnd_sends :
    let s := probing9 id
    let d := probing9 fun x => { x with generator := .done }
    let k := (ownLane .laneTest (idle 9)).updEngine .e0 fun x => { x with lane := some .l3 }
    (s.inReset = false ∧ (s.lane .l3).occupancy = .own ∧ (s.lane .l3).owner = some .origin ∧
      (s.engine .e0).lane = some .l3 ∧ (s.engine .e0).genStart + 0 * wordTime ≤ s.now) ∧
    (halfSends s .l3 .a = .pattern ∧ halfSends s .l3 .b = .nothing ∧ halfSends d .l3 .a = .stream .silence) ∧
    ((k.lane .l3).owner = some .laneTest ∧ (k.engine .e0).generator ≠ .running ∧ halfSends k .l3 .a = .nothing) := by decide

/-! ## Service Responder -/

/-- 12, worked example: lane 2, L = 3, k = 6, start bit 5, walk 3, b = 3, ordered by station 30. -/
def order30 (role : Octet) : Rx := rx 30 3 [role, 2, 3, 6, 5, 3, 3]

def test30 (role : TestRole) (at_ : Time) : LaneTest :=
  { role := role, lane := .l2, orderer := 30, lengthExp := 3, intervalExp := 6, startBit := 5, walk := 3, burstExp := 3,
    start := at_, dropouts := 0, largest := 0 }

/-- The figures of 12's worked example: 8 of 15 insertion points, 7,936 words compared, the bits inverted, seed 768. -/
theorem test_lane_test_figures :
    (test30 .check 0).expected = 8 ∧ insertionsBelow 6 0 8192 = 15 ∧ testGoal 3 = 7936 ∧ seedOf 3 0 = 768 ∧
    (List.range 8).map (insertedBit (test30 .check 0)) = [5, 8, 11, 14, 17, 20, 23, 26] ∧
    insertionsBelow 6 3 3000 = 5 ∧ insertedAt (test30 .check 0) 4096 = true ∧ insertedAt (test30 .check 0) 4608 = false := by
  decide

theorem witness_testOrderStartsTheTest :
    let s := idle 3
    s.inReset = false ∧ s.hears (order30 0) ∧ (order30 0).payload.length = 7 ∧ s.recordActive = false ∧
    testFieldsOk (order30 0).payload = true ∧ octAt (order30 0).payload 1 = laneNumber .l2 ∧
    (s.lane .l2).freeForChoosing = true ∧
    (after (.testOrderGenerate (ms 1000) (order30 0)) s).engines.e0.genSeed = 768 ∧
    (after (.testOrderGenerate (ms 1000) (order30 0)) s).lanes.l2.occupancy = .own ∧
    (after (.testOrderCheck (ms 1000) (order30 1)) s).svc.test = some (test30 .check (ms 1000)) ∧
    (after (.testOrderCheck (ms 1000) (order30 1)) s).engines.e0.checker = .settle := by decide

/-- R180: an order out of range, of a role above 2 or beside an active record is refused; a STOP without a test is answered. -/
theorem witness_testOrderStartsTheTest_refused :
    let s := idle 3
    let bad := rx 30 3 [0, 2, 11, 6, 5, 3, 3]
    let seven := rx 30 3 [1, 7, 3, 6, 5, 3, 3]
    let busy : State := { s with coc := { s.coc with state := .seeking } }
    let taken := s.updLane .l2 fun x => { x with occupancy := .busy }
    let reply := fun (u : State) => u.band.services.map Frame.payload
    let refused : Octet → List Octet := fun l => [9, l, 0, 0, 0, 0, 0, 0, 0, 0, 0, 0, 0]
    (s.inReset = false ∧ s.hears bad ∧ testFieldsOk bad.payload = false ∧ laneOfNumber 7 = none ∧ busy.recordActive = true ∧
      (taken.lane .l2).freeForChoosing = false ∧ 2 < octAt (order30 3).payload 0 ∧ s.svc.test = none) ∧
    reply (after (.testOrderGenerate (ms 1000) bad) s) = [refused 2] ∧
    reply (after (.testOrderCheck (ms 1000) seven) s) = [refused 7] ∧
    reply (after (.testOrderGenerate (ms 1000) (order30 0)) busy) = [refused 2] ∧
    reply (after (.testOrderCheck (ms 1000) (order30 1)) taken) = [refused 2] ∧
    reply (after (.testOrderGenerate (ms 1000) (order30 3)) s) = [refused 2] ∧
    reply (after (.testOrderStop (ms 1000) (order30 2)) s) = [[0, 0, 0, 0, 0, 0, 0, 0, 0, 0, 0, 0, 0]] := by decide

/-- Station 3 in the test of the worked example, begun at 1,000 ms, its checker as given. -/
def testing (role : TestRole) (f : Engine → Engine) : State :=
  (after (match role with
    | .generate => Instr.testOrderGenerate (ms 1000) (order30 0)
    | .check => Instr.testOrderCheck (ms 1000) (order30 1)) (idle 3)).updEngine .e0 f

/-- The same, its receiver in the frame that follows the order. -/
def testingOn (role : TestRole) : State :=
  let s := testing role id
  { s with band := { s.band with receiving := true } }

set_option maxRecDepth 8000 in
theorem witness_laneTestEndsWithItsReport :
    let g := testing .generate id
    let k := testingOn .check
    let c := testing .check fun x => { x with checker := .check, predictor := 768, compared := 7935, errors := 8, compare := 4 }
    let u := after (.testCheckComplete (ms 3048) (wordIn c 0 32 32)) c
    (g.inReset = false ∧ g.calm ∧ g.svc.test = some (test30 .generate (ms 1000)) ∧ (g.lane .l2).owner = some .laneTest ∧
      (g.engine .e0).user = some .laneTest ∧ (g.engine .e0).lane = some .l2 ∧ (c.engine .e0).compared + 1 = testGoal 3 ∧
      k.hears (order30 2)) ∧
    ((after (.testGenerationEnd (ms 3048)) g).svc.record = ⟨.generated, 2, 8192, 8, 0, 0, 0, 0⟩ ∧
      (after (.testGenerationEnd (ms 3048 - 1)) g).svc.test ≠ none ∧
      (after (.testTimeout (ms 5048)) k).svc.record.result = .timeout ∧ (after (.testTimeout (ms 5048 - 1)) k).svc.test ≠ none ∧
      (after (.testOrderStop (ms 2000) (order30 2)) k).svc.record.result = .aborted) ∧
    (u.svc.record = ⟨.pass, 2, 7936, 8, 8, 4, 5, 0⟩ ∧ u.lanes.l2.owner = none ∧
      u.band.services = [testReportFrame 30 u.svc.record]) := by decide

set_option maxRecDepth 8000 in
/-- R136, R182: bit clocks that come before their word is whole, the 1,024th compared word, and the word that ends the test as
STUCK, whose bit clocks are in its record. -/
theorem witness_laneTestEndsWithItsReport_counts_clocks :
    let s := fun (f : Engine → Engine) => (testing .check fun x => f { x with checker := .check, predictor := 768, compare := 4 }).updLane .l2
      fun y => { y with carrierA := true }
    let c := s fun x => { x with compared := 1023 }
    let k := s fun x => { x with run := 6, lastWord := some (nextWord 768).1 }
    let w := wordIn c 0 34 32
    let p := after (.probeWordReceived (ms 1000) (.clocks .e0 [.ownBit, .ownBit, .receivedBit])) c
    let n := after (.probeWordReceived (ms 1000) (.word w)) c
    (c.calm ∧ c.svc.test = some (test30 .check (ms 1000)) ∧ (c.engine .e0).receiveHalf = some .a ∧ (c.lane .l2).heard .a = true ∧
      (c.engine .e0).compared + 1 < testGoal 3 ∧ (c.engine .e0).lastWord ≠ some w.word ∧ k.calm ∧
      (k.engine .e0).lastWord = some w.word) ∧
    (p.engines.e0.compare = 5 ∧ p.svc.test.map LaneTest.largest = some 6) ∧
    (n.engines.e0.compare = 0 ∧ n.engines.e0.compared = 1024 ∧ n.svc.test.map LaneTest.largest = some 6) ∧
    (after (.stuck (ms 1000) w) k).svc.record = ⟨.stuck, 2, 0, 0, 8, 6, 6, 0⟩ := by decide

set_option maxRecDepth 8000 in
/-- R154, R183: a press and a CLAIM end the test, with its report to station 30, and are then taken. -/
theorem witness_laneTestEndsWithItsReport_given_up :
    let k : State := { bare (testingOn .check) with button := { pressed := false, disagree := 2, sampledAt := ms 1000 } }
    let b : State := { k with coc := { k.coc with state := .queued } }
    let o : State := { k with straps := { k.straps with offer := false } }
    let new := rx 5 3 [7, 0, 63]
    let rejoin := rx 5 3 [7, 1, 63]
    let u := after (.buttonPress (ms 1010)) k
    let v := after (.buttonPress (ms 1010)) b
    let n := after (.claimNew (ms 1010) new) o
    let j := after (.claimRejoin (ms 1010) rejoin) k
    (k.calm ∧ b.calm ∧ k.noCandidate ∧ k.svc.test = some (test30 .check (ms 1000)) ∧ (k.lane .l2).owner = some .laneTest ∧
      (k.engine .e0).user = some .laneTest ∧ (k.engine .e0).lane = some .l2 ∧ o.hears new ∧ k.hears rejoin) ∧
    ([u, v, n, j].all fun x => x.svc.record.result == .aborted && x.svc.test == none && x.lanes.l2.owner == none &&
      x.band.services == [testReportFrame 30 x.svc.record]) = true ∧
    (u.coc.state = .seeking ∧ u.coc.tag = 1 ∧ v.coc.pressesIgnored = 1) ∧
    (n.band.calls = [refuseFrame 5 7 .noChannel] ∧ j.band.calls = [refuseFrame 5 7 .noRejoin]) := by decide

set_option maxRecDepth 8000 in
/-- R182: the gap of a lane test in which a wrong word brought SEEK is a dropout when carrier returns. -/
theorem test_dropout_after_a_word_in_the_gap :
    let s := testing .check fun x => { x with checker := .steady, predictor := 768, gapFrom := some (ms 990) }
    let u := after (.carrierHeard (ms 1001) .l2 .a) (after (.probeWordReceived (ms 1000) (.word (wordIn s 1 32 32))) s)
    u.svc.test.map LaneTest.dropouts = some 1 ∧ u.engines.e0.checker = .seek ∧ u.engines.e0.gapFrom = none := by decide

set_option maxRecDepth 8000 in
theorem witness_statusQueriesAreAnswered :
    let s : State := { mod9 readyMod with counters := { Counters.zero with framesSent := 259 } }
    let q := fun (part clear : Octet) => rx 30 9 [part, clear]
    let reply := fun (u : State) => u.band.services.map Frame.payload
    (s.inReset = false ∧ s.hears (q 0 0) ∧ (q 0 0).payload.length = 2 ∧ octAt (q 4 0).payload 0 = 4) ∧
    reply (after (.statusQueryGeneral (ms 1000) (q 0 0)) s) = [generalOctets s] ∧
    reply (after (.statusQueryGeneral (ms 1000) (q 4 0)) s) = [generalOctets s] ∧
    (reply (after (.statusQueryCounters (ms 1000) (q 1 0)) s)).map (List.take 3) = [[1, 3, 0]] ∧
    (after (.statusQueryCounters (ms 1000) (q 1 1)) s).counters = Counters.zero ∧
    (after (.statusQueryCounters (ms 1000) (q 1 2)) s).counters.framesSent = 259 ∧
    (reply (after (.statusQueryModules (ms 1000) (q 2 0)) s)).map List.length =
      [(moduleOctets s.modules.a).length + (moduleOctets s.modules.b).length] ∧
    reply (after (.statusQueryLastTest (ms 1000) (q 3 0)) s) = [[0, 0, 0, 0, 0, 0, 0, 0, 0, 0, 0, 0, 0]] := by decide

set_option maxRecDepth 8000 in
theorem witness_restartClearsOrIsRefused :
    let s := onLane3 none
    let f := fun (force : Octet) => rx 30 9 [force]
    let u := after (.restart (ms 1000) (f 1)) s
    (s.inReset = false ∧ s.hears (f 1) ∧ (f 1).payload.length = 1 ∧ s.recordActive = true ∧ (idle 9).recordActive = false) ∧
    ((after (.restart (ms 1000) (f 0)) s).svc.lastRestart = .refused ∧ (after (.restart (ms 1000) (f 0)) s).coc = s.coc) ∧
    (u.coc.state = .idle ∧ u.coc.endReason = .restart ∧ u.lanes.l3.owner = none ∧ u.svc.lastRestart = .done) ∧
    ((after (.restart (ms 1000) (f 2)) (idle 9)).svc.lastRestart = .done) := by decide

set_option maxRecDepth 8000 in
/-- R184: with a call of its own, a carriage and a test, the frames of a RESTART in their order. -/
theorem witness_restartClearsOrIsRefused_frames :
    let s : State := { onLane3 none with carriages := { a := none, b := some (car5 .dialing none) } }
    let f := rx 30 9 [1]
    let u := after (.restart (ms 1000) f) s
    let t := after (.restart (ms 1000) (rx 30 3 [1])) (testingOn .check)
    (s.hears f ∧ octAt f.payload 0 = 1) ∧
    u.band.calls = [releaseFrame 2 41 .restart, releaseFrame 5 7 .restart] ∧
    u.band.services = [statusReport 30 (generalOctets u)] ∧ u.coc.tagCounter = 41 ∧
    (t.band.services.map Frame.kind = [.statusReport, .testReport] ∧ t.svc.record.result = .aborted) := by decide

end Sys2Proof.Tests
end

