-- ==== Sys2Proof/Proofs/Offering.lean ====
section
/-! # The offering flag (01, R1) and its place in STATUS-REPORT GENERAL (12.1) -/

namespace Sys2Proof.Machine

/-- A bit of an octet is that bit of the number it was formed from. -/
theorem oct_getLsbD {i : Nat} (hi : i < 8) (n : Nat) : (oct n).getLsbD i = n.testBit i := by
  rw [oct, BitVec.getLsbD_ofNat, decide_eq_true hi, Bool.true_and]

/-- The supply fills at most the two lowest bits of the flags octet. -/
theorem supplyCode_lt_four (x : Supply) : supplyCode x < 4 := by
  cases x <;> decide

/-- The supply state has three values: not LOW is NORMAL or RESERVE. -/
theorem supply_ne_low_iff (x : Supply) : x ≠ .low ↔ x = .normal ∨ x = .reserve := by
  cases x <;> simp

/-- A flag packed above two bits and below whole multiples of 8 is read back at bit 2. -/
theorem testBit_two_packed {low : Nat} (hlow : low < 4) (flag : Bool) (rest : Nat) :
    (low + 4 * boolNat flag + 8 * rest).testBit 2 = flag := by
  have hquot : (low + 4 * boolNat flag + 8 * rest) / 2 ^ 2 = boolNat flag + 2 * rest := by omega
  rw [Nat.testBit_eq_decide_div_mod_eq, hquot]
  cases flag <;> simp [boolNat]

/-- R1: the four conditions of the flag. -/
theorem offeringFlag_eq_true_iff (s : State) :
    s.offeringFlag = true ↔
      s.straps.offer = true ∧ (s.straps.modA = true ∨ s.straps.modB = true) ∧
        (s.supply.state = .normal ∨ s.supply.state = .reserve) ∧ s.band.dupFault = false := by
  rw [← supply_ne_low_iff]
  simp [State.offeringFlag, and_assoc]

/-- Octet 8 of GENERAL carries the offering flag above the two bits of the supply. -/
theorem flagsOctet_bit_two (s : State) : (flagsOctet s).getLsbD 2 = s.offeringFlag := by
  have hpacked : supplyCode s.supply.state + 4 * boolNat s.offeringFlag + 8 * boolNat s.band.dupFault
        + 16 * endReasonCode s.coc.endReason + 64 * restartCode s.svc.lastRestart =
      supplyCode s.supply.state + 4 * boolNat s.offeringFlag
        + 8 * (boolNat s.band.dupFault + 2 * endReasonCode s.coc.endReason + 8 * restartCode s.svc.lastRestart) := by
    omega
  rw [flagsOctet, oct_getLsbD (by decide), hpacked, testBit_two_packed (supplyCode_lt_four _)]

/-- Settles O15: the flag's four conditions, and its bit in the flags octet. -/
theorem offeringFlagConditions : Obligations.OfferingFlagConditions := by
  unfold Obligations.OfferingFlagConditions
  exact fun s => ⟨offeringFlag_eq_true_iff s, flagsOctet_bit_two s⟩

end Sys2Proof.Machine
end

/-! # The raw score of a candidate (02, 2.4, R27) -/

namespace Sys2Proof.Machine

/-- The model's age term subtracts whole numbers, R27's takes the maximum with 0: both are 0 up to the age of 2 seconds. -/
theorem ageExcess_eq_max (a : Nat) : ((a - 2 : Nat) : Int) = max 0 ((a : Int) - 2) := by
  rcases Nat.le_total a 2 with fresh | stale
  · rw [Nat.sub_eq_zero_of_le fresh, max_eq_left (by omega), Nat.cast_zero]
  · rw [Nat.cast_sub stale, max_eq_right (by omega), Nat.cast_ofNat]

/-- Settles O11: the formula of R27, with the age term as a maximum. -/
theorem rawScoreFormula : Obligations.RawScoreFormula := by
  unfold Obligations.RawScoreFormula
  intro c
  rw [Candidate.raw, ageExcess_eq_max]

end Sys2Proof.Machine

/-! # The lane choice (07, 7.2, R123) -/

namespace Sys2Proof.Machine

/-- In a list of all values with growing keys, the first hit is the hit below which every key misses. -/
theorem find?_eq_some_iff_least_key {α : Type} {xs : List α} {key : α → Nat}
    (sorted : xs.Pairwise fun a b => key a < key b) (complete : ∀ a, a ∈ xs) (p : α → Bool) (a : α) :
    xs.find? p = some a ↔ p a = true ∧ ∀ b, key b < key a → p b = false := by
  constructor
  · intro found
    obtain ⟨hit, before, after, rfl, missed⟩ := List.find?_eq_some_iff_append.mp found
    refine ⟨hit, fun b lower => ?_⟩
    obtain ⟨_, fromHit, _⟩ := List.pairwise_append.mp sorted
    have later : ∀ c ∈ after, key a < key c := (List.pairwise_cons.mp fromHit).1
    have earlier : b ∈ before := by
      rcases List.mem_append.mp (complete b) with inBefore | inRest
      · exact inBefore
      · rcases List.mem_cons.mp inRest with rfl | inAfter
        · exact absurd lower (Nat.lt_irrefl _)
        · exact absurd lower (Nat.lt_asymm (later b inAfter))
    simpa using missed b earlier
  · rintro ⟨hit, missed⟩
    obtain ⟨before, after, rfl⟩ := List.append_of_mem (complete a)
    obtain ⟨_, _, across⟩ := List.pairwise_append.mp sorted
    refine List.find?_eq_some_iff_append.mpr ⟨hit, before, after, rfl, fun b earlier => ?_⟩
    have lower : key b < key a := across b earlier a List.mem_cons_self
    simp [missed b lower]

/-- R123: the search meets every lane, whatever lane it starts at. -/
theorem mem_searchOrder (own : Station) (l : Lane) : l ∈ searchOrder own := by
  have listed : l ∈ allLanes := by cases l <;> decide
  rw [← List.take_append_drop ((own - 1) % 6) allLanes] at listed
  exact List.mem_append.mpr (List.mem_append.mp listed).symm

/-- The six rotations of the lanes, each in the order of the places counted from its start. -/
theorem rotatedLanes_sorted : ∀ k < 6, (allLanes.drop k ++ allLanes.take k).Pairwise
    fun a b => (laneNumber a - 1 + 6 - k) % 6 < (laneNumber b - 1 + 6 - k) % 6 := by
  decide

/-- R123: the search meets the lanes in the order of their places. -/
theorem searchOrder_sorted (own : Station) :
    (searchOrder own).Pairwise fun a b => searchPlace own a < searchPlace own b :=
  rotatedLanes_sorted ((own - 1) % 6) (Nat.mod_lt _ (by decide))

/-- R129: station 0 chooses no lane. -/
theorem chooseLane_of_own_eq_zero {s : State} (unnumbered : s.own = 0) (mask : LaneMask) : chooseLane mask s = none :=
  if_pos unnumbered

/-- R123: a numbered station's choice is the first hit of its search. -/
theorem chooseLane_of_own_ne_zero {s : State} (numbered : s.own ≠ 0) (mask : LaneMask) :
    chooseLane mask s = (searchOrder s.own).find? fun l => inMask mask l && (s.lane l).freeForChoosing :=
  if_neg numbered

/-- R123, R129: the lane chosen is the free lane of the mask with the least place in the search. -/
theorem chooseLane_eq_some_iff (mask : LaneMask) (s : State) (l : Lane) :
    chooseLane mask s = some l ↔
      s.own ≠ 0 ∧ inMask mask l = true ∧ (s.lane l).freeForChoosing = true ∧
        ∀ k, searchPlace s.own k < searchPlace s.own l → inMask mask k = false ∨ (s.lane k).freeForChoosing = false := by
  by_cases unnumbered : s.own = 0
  · simp [chooseLane_of_own_eq_zero unnumbered, unnumbered]
  · rw [chooseLane_of_own_ne_zero unnumbered,
      find?_eq_some_iff_least_key (searchOrder_sorted s.own) (mem_searchOrder s.own)]
    simp only [ne_eq, unnumbered, not_false_eq_true, true_and, Bool.and_eq_true, Bool.and_eq_false_iff, and_assoc]

/-- R123, R129: nothing is chosen by station 0, and where no lane of the mask is free for choosing. -/
theorem chooseLane_eq_none_iff (mask : LaneMask) (s : State) :
    chooseLane mask s = none ↔ s.own = 0 ∨ ∀ l, inMask mask l = false ∨ (s.lane l).freeForChoosing = false := by
  by_cases unnumbered : s.own = 0
  · simp [chooseLane_of_own_eq_zero unnumbered, unnumbered]
  · rw [chooseLane_of_own_ne_zero unnumbered, List.find?_eq_none]
    simp only [mem_searchOrder, forall_const, unnumbered, false_or, Bool.not_eq_true, Bool.and_eq_false_iff]

/-- Settles O13: the search is sorted by place and complete, so its first hit is the hit of the least place. -/
theorem laneChoiceIsFirstInSearch : Obligations.LaneChoiceIsFirstInSearch := by
  unfold Obligations.LaneChoiceIsFirstInSearch
  exact fun mask s => ⟨chooseLane_eq_some_iff mask s, chooseLane_eq_none_iff mask s⟩

end Sys2Proof.Machine

/-! # What every command keeps: an event of one of two kinds, with an operation that keeps soundness (95) -/

namespace Sys2Proof.Machine

/-- A command that is one event of file 95, or one that stays within its block, taken at a time of its own: its operation keeps
what `Keeps` lists. -/
def TakenAsEvent (c : Instr) : Prop :=
  ∃ (t : Time) (op : State → State), (∀ {a s : State}, Keeps a s → Keeps a (op s)) ∧
    ((∀ s, exec c s = .next (event t op s)) ∨ ∀ s, exec c s = .next (localEvent t op s))

theorem TakenAsEvent.ofEvent {c : Instr} {t : Time} {op : State → State}
    (keeps : ∀ {a s : State}, Keeps a s → Keeps a (op s)) (arm : ∀ s, exec c s = .next (event t op s)) : TakenAsEvent c :=
  ⟨t, op, keeps, .inl arm⟩

theorem TakenAsEvent.ofLocal {c : Instr} {t : Time} {op : State → State}
    (keeps : ∀ {a s : State}, Keeps a s → Keeps a (op s)) (arm : ∀ s, exec c s = .next (localEvent t op s)) :
    TakenAsEvent c :=
  ⟨t, op, keeps, .inr arm⟩

/-- Every command but the two of the full reset is taken as an event (95). -/
theorem takenAsEvent (c : Instr) (notBegin : ∀ e, c ≠ .fullReset e) (notEnd : ∀ t p, c ≠ .fullResetEnd t p) :
    TakenAsEvent c := by
  cases c with
  | fullReset e => exact absurd rfl (notBegin e)
  | fullResetEnd t pins => exact absurd rfl (notEnd t pins)
  | offerFirstDue t => exact .ofLocal firstOffer_keeps fun _ => rfl
  | offerPeriodicDue t => exact .ofLocal periodicOffer_keeps fun _ => rfl
  | changeDeadline t => exact .ofLocal changeOffer_keeps fun _ => rfl
  | offerSpacingEnd t => exact .ofLocal spacingEnds_keeps fun _ => rfl
  | offer t f => exact .ofEvent (receive_keeps 16 f) fun _ => rfl
  | offerWithdrawal t f => exact .ofEvent (receive_keeps 16 f) fun _ => rfl
  | offerEntryExpiry t station => exact .ofLocal (expireEntry_keeps station) fun _ => rfl
  | buttonSample t pressed => exact .ofEvent (sampleButton_keeps pressed) fun _ => rfl
  | buttonPress t => exact .ofEvent (sampleButton_keeps true) fun _ => rfl
  | buttonRelease t => exact .ofEvent (sampleButton_keeps false) fun _ => rfl
  | retryTime t => exact .ofEvent retryReached_keeps fun _ => rfl
  | answerDeadline t => exact .ofEvent answerReached_keeps fun _ => rfl
  | silenceDeadline t => exact .ofEvent silenceReached_keeps fun _ => rfl
  | regrantWait t => exact .ofEvent regrantReached_keeps fun _ => rfl
  | searchDeadline t => exact .ofEvent searchReached_keeps fun _ => rfl
  | failedUntil t => exact .ofLocal failedReached_keeps fun _ => rfl
  | grant t f => exact .ofEvent (receive_keeps 1 f) fun _ => rfl
  | wait t f => exact .ofEvent (receive_keeps 2 f) fun _ => rfl
  | refuse t f => exact .ofEvent (receive_keeps 3 f) fun _ => rfl
  | progress t f => exact .ofEvent (receive_keeps 5 f) fun _ => rfl
  | releaseFromUplink t f => exact .ofEvent (receive_keeps 6 f) fun _ => rfl
  | releaseFromOrigin t f => exact .ofEvent (receive_keeps 6 f) fun _ => rfl
  | releaseRestart t f => exact .ofEvent (receive_keeps 6 f) fun _ => rfl
  | claimNew t f => exact .ofEvent (receive_keeps 7 f) fun _ => rfl
  | claimRejoin t f => exact .ofEvent (receive_keeps 7 f) fun _ => rfl
  | waitRefresh t origin tag => exact .ofLocal (refreshWait_keeps origin tag) fun _ => rfl
  | queueEntryExpiry t origin tag => exact .ofEvent (claimExpires_keeps origin tag) fun _ => rfl
  | connect t f => exact .ofEvent (receive_keeps 4 f) fun _ => rfl
  | connectDeadline t m => exact .ofEvent (connectExpires_keeps m) fun _ => rfl
  | ringDeadline t m => exact .ofEvent (ringExpires_keeps m) fun _ => rfl
  | rejoinDeadline t m => exact .ofEvent (rejoinExpires_keeps m) fun _ => rfl
  | linkMessageDiscarded t m hunted message => exact .ofEvent (linkStream_keeps m (hunted ++ message)) fun _ => rfl
  | linkMessageTimeout t m octets => exact .ofEvent (linkStream_keeps m octets) fun _ => rfl
  | ready t m => exact .ofEvent (onReport_keeps m fun _ => readyReport_keeps m) fun _ => rfl
  | scanList t m entries => exact .ofEvent (onReport_keeps m fun _ => scanListReport_keeps m entries) fun _ => rfl
  | selected t m code result => exact .ofEvent (onReport_keeps m fun _ => selectEnds_keeps m code.toNat (result == 0)) fun _ => rfl
  | accepted t m => exact .ofEvent (onReport_keeps m fun _ => acceptedReport_keeps m) fun _ => rfl
  | rejected t m => exact .ofEvent (onReport_keeps m fun _ => rejectedReport_keeps m) fun _ => rfl
  | ringing t m => exact .ofEvent (onReport_keeps m fun _ => ringingReport_keeps m) fun _ => rfl
  | answered t m => exact .ofEvent (onReport_keeps m fun _ => answeredReport_keeps m) fun _ => rfl
  | ended t m reason => exact .ofEvent (onReport_keeps m fun _ => endedReport_keeps m reason) fun _ => rfl
  | aborted t m => exact .ofEvent (onReport_keeps m fun _ => abortedReport_keeps m) fun _ => rfl
  | quality t m q => exact .ofEvent (onReport_keeps m fun _ => qualityReport_keeps m q) fun _ => rfl
  | fault t m => exact .ofEvent (onReport_keeps m fun _ => powerCycle_keeps m) fun _ => rfl
  | scanTimeout t m => exact .ofEvent (orderTimesOut_keeps m .scan fun _ => scanTimesOut_keeps m) fun _ => rfl
  | selectTimeout t m => exact .ofEvent (orderTimesOut_keeps m .select fun _ => selectTimesOut_keeps m) fun _ => rfl
  | dialTimeout t m => exact .ofEvent (orderTimesOut_keeps m .dial fun _ => orderHangup_keeps m) fun _ => rfl
  | hangupTimeout t m => exact .ofEvent (orderTimesOut_keeps m .hangup fun _ => powerCycle_keeps m) fun _ => rfl
  | abortTimeout t m => exact .ofEvent (orderTimesOut_keeps m .abort fun _ => abortEnds_keeps m) fun _ => rfl
  | powerOnTime t m => exact .ofEvent (switchOn_keeps m) fun _ => rfl
  | poweringDeadline t m => exact .ofEvent (poweringExpires_keeps m) fun _ => rfl
  | rescanDue t m => exact .ofEvent (rescanStarts_keeps m) fun _ => rfl
  | refreshDue t m => exact .ofEvent (refreshCheck_keeps m) fun _ => rfl
  | progressDeadline t m => exact .ofEvent (progressExpires_keeps m) fun _ => rfl
  | penaltyEnd t m code => exact .ofEvent (penaltyOver_keeps m code) fun _ => rfl
  | carrierHeard t l h => exact .ofLocal (carrierRises_keeps l h) fun _ => rfl
  | carrierNotHeard t l h => exact .ofLocal (carrierFalls_keeps l h) fun _ => rfl
  | laneFree t l => exact .ofEvent (laneTurnsFree_keeps l) fun _ => rfl
  | quarantineEnd t l => exact .ofEvent (endQuarantine_keeps l) fun _ => rfl
  | generatorDone t e => exact .ofLocal (generatorEnds_keeps e) fun _ => rfl
  | settleEnd t e => exact .ofLocal (settleEnds_keeps e) fun _ => rfl
  | probeWordReceived t w => exact .ofEvent (lineArrives_keeps w) fun _ => rfl
  | steadyReached t w => exact .ofEvent (wordArrives_keeps w) fun _ => rfl
  | nosync t w => exact .ofEvent (wordArrives_keeps w) fun _ => rfl
  | stuck t w => exact .ofEvent (wordArrives_keeps w) fun _ => rfl
  | checkerGapReset t e => exact .ofLocal (checkerGapResets_keeps e) fun _ => rfl
  | checkComplete t w => exact .ofEvent (wordArrives_keeps w) fun _ => rfl
  | probeTimeout t e => exact .ofEvent (probeTimesOut_keeps e) fun _ => rfl
  | laneLoss t l => exact .ofEvent (loseLane_keeps l) fun _ => rfl
  | holdUntilEnd t d => exact .ofLocal (endHold_keeps d) fun _ => rfl
  | promptPlayEnd t p => exact .ofLocal (playEnds_keeps p) fun _ => rfl
  | promptGapEnd t p => exact .ofLocal (playGapEnds_keeps p) fun _ => rfl
  | identToneEnd t => exact .ofLocal toneEnds_keeps fun _ => rfl
  | identGapEnd t => exact .ofLocal toneGapEnds_keeps fun _ => rfl
  | lampOnTimeEnd t => exact .ofLocal lampTurnsOff_keeps fun _ => rfl
  | lampPeriodEnd t => exact .ofLocal periodEnds_keeps fun _ => rfl
  | periodTick t => exact .ofLocal periodEnds_keeps fun _ => rfl
  | supplySample t millivolts => exact .ofEvent (supplyTaken_keeps millivolts) fun _ => rfl
  | supplyStateChange t millivolts => exact .ofEvent (supplyTaken_keeps millivolts) fun _ => rfl
  | bandActivity t => exact .ofLocal bandActive_keeps fun _ => rfl
  | bandQuiet t => exact .ofLocal bandFallsQuiet_keeps fun _ => rfl
  | sendStart t => exact .ofLocal startSending_keeps fun _ => rfl
  | frameSent t => exact .ofLocal sendingDone_keeps fun _ => rfl
  | collision t => exact .ofLocal sendingCollides_keeps fun _ => rfl
  | frameDiscarded t e => exact .ofLocal (discardReception_keeps e) fun _ => rfl
  | duplicateNumberFrame t => exact .ofEvent (readFrame_keeps fun _ => duplicateHeard_keeps) fun _ => rfl
  | unknownKindFrame t kind f => exact .ofEvent (receive_keeps kind.toNat f) fun _ => rfl
  | reportFrameHeard t f => exact .ofEvent (receive_keeps 33 f) fun _ => rfl
  | statusQueryGeneral t f => exact .ofEvent (receive_keeps 32 f) fun _ => rfl
  | statusQueryCounters t f => exact .ofEvent (receive_keeps 32 f) fun _ => rfl
  | statusQueryModules t f => exact .ofEvent (receive_keeps 32 f) fun _ => rfl
  | statusQueryLastTest t f => exact .ofEvent (receive_keeps 32 f) fun _ => rfl
  | testOrderGenerate t f => exact .ofEvent (receive_keeps 34 f) fun _ => rfl
  | testOrderCheck t f => exact .ofEvent (receive_keeps 34 f) fun _ => rfl
  | testOrderStop t f => exact .ofEvent (receive_keeps 34 f) fun _ => rfl
  | testGenerationEnd t => exact .ofEvent generationEnds_keeps fun _ => rfl
  | testCheckComplete t w => exact .ofEvent (wordArrives_keeps w) fun _ => rfl
  | testTimeout t => exact .ofEvent testTimesOut_keeps fun _ => rfl
  | restart t f => exact .ofEvent (receive_keeps 36 f) fun _ => rfl
  | avoidEntryLeave t station => exact .ofLocal (leaveAvoid_keeps station) fun _ => rfl

/-- An event or a local event keeps what `Keeps` lists, and during a full reset only its time is taken (R175). -/
theorem TakenAsEvent.next {c : Instr} (taken : TakenAsEvent c) (s : State) :
    ∃ t u, exec c s = .next u ∧ Keeps (startEvent t s) u ∧ (s.inReset = true → u = startEvent t s) := by
  obtain ⟨t, op, keeps, arm | arm⟩ := taken
  · exact ⟨t, _, arm s, event_keeps t s (keeps (Keeps.rfl' _)), fun r => if_pos r⟩
  · exact ⟨t, _, arm s, localEvent_keeps t s (keeps (Keeps.rfl' _)), fun r => if_pos r⟩

/-- The time moved on, and no output or notice of an earlier command: soundness reads none of them. -/
theorem startEvent_sound {s : State} (t : Time) (h : s.Sound) : (startEvent t s).Sound :=
  ⟨h.queue, h.claims, h.avoid, h.offers, h.nets, h.compare, h.owned⟩

end Sys2Proof.Machine

/-! # The full reset, the step and soundness (11; 95) -/

namespace Sys2Proof.Machine

/-! ## Soundness of the initial values -/

/-- The initial queue, tables, engines and lanes of a full reset are sound, whatever the straps are. -/
theorem sound_of_initial {u : State} {t : Time} (band : u.band = Band.reset t) (claims : u.claims = [])
    (coc : u.coc = Origin.reset) (offers : u.offerTable = []) (tables : ∀ m, (u.modules.get m).table = [])
    (engines : ∀ e, u.engines.get e = Engine.idle) (lanes : ∀ l, u.lanes.get l = LaneEntry.reset t) : u.Sound where
  queue := by rw [band]; exact ⟨by simp [Band.reset, Band.size], by simp [Band.reset], fun _ => ⟨rfl, rfl⟩⟩
  claims := by rw [claims]; simp
  avoid := by rw [coc]; exact ⟨by simp [Origin.reset], by simp [Origin.reset]⟩
  offers := by rw [offers]; exact ⟨by simp, .nil, by simp⟩
  nets m := by rw [tables]; exact netTableOk_nil
  compare e := by rw [engines]; exact ⟨by simp [Engine.idle], by simp [Engine.idle]⟩
  owned l := by rw [lanes]; exact fun own => by cases own

/-- Before and right after a full reset every module table is empty (R119). -/
theorem Module.start_table (fitted : Bool) (now : Time) : (Module.start fitted now).table = [] := by
  cases fitted <;> rfl

/-- R175: the station during a full reset is sound. -/
theorem duringFullReset_sound (t : Time) (cause : ResetCause) (s : State) : (duringFullReset t cause s).Sound :=
  sound_of_initial (t := max s.now t) rfl rfl rfl rfl (by intro m; cases m <;> rfl) (by intro e; cases e <;> rfl)
    (by intro l; cases l <;> rfl)

/-- R174: the station at the end of a full reset is sound. -/
theorem afterFullReset_sound (pins : Straps) (now : Time) : (afterFullReset pins now).Sound :=
  sound_of_initial (t := now) rfl rfl rfl rfl (by intro m; cases m <;> exact Module.start_table _ _)
    (by intro e; cases e <;> rfl) (by intro l; cases l <;> rfl)

/-- Settles O6: the reset state is the end of a full reset with every strap pin 0 (log 4). -/
theorem resetStateIsSound : Obligations.ResetStateIsSound := by
  unfold Obligations.ResetStateIsSound
  rw [← afterFullReset_zero]
  exact afterFullReset_sound _ _

/-! ## The end of a full reset, by the 50 ms of a power-on (R174, R175) -/

/-- R174: the full reset ends. -/
theorem fullResetEnds_of_passed {s : State} {t : Time} (pins : Straps) (r : s.inReset = true)
    (p : passed s.powerOnHold (max s.now t) = true) :
    fullResetEnds pins t s =
      { afterFullReset pins (max s.now t) with freeTick := s.freeTick, pending := s.pending } := by
  unfold fullResetEnds; rw [r, p]; rfl

/-- R175: without a full reset under way, or inside the 50 ms of a power-on, only the time moves. -/
theorem fullResetEnds_of_not {s : State} {t : Time} (pins : Straps)
    (p : (s.inReset && passed s.powerOnHold (max s.now t)) = false) : fullResetEnds pins t s = startEvent t s := by
  unfold fullResetEnds; rw [p]; rfl

/-- R174, R175: what a full reset's end can do. -/
theorem fullResetEnds_cases (pins : Straps) (t : Time) (s : State) :
    fullResetEnds pins t s = { afterFullReset pins (max s.now t) with freeTick := s.freeTick, pending := s.pending } ∨
      fullResetEnds pins t s = startEvent t s := by
  by_cases p : (s.inReset && passed s.powerOnHold (max s.now t)) = true
  · obtain ⟨r, q⟩ := Bool.and_eq_true_iff.mp p
    exact .inl (fullResetEnds_of_passed pins r q)
  · exact .inr (fullResetEnds_of_not pins (by simpa using p))

/-- A time that is absent or reached has passed. -/
theorem passed_iff (d : Option Time) (now : Time) : passed d now = true ↔ ∀ x, d = some x → x ≤ now := by
  cases d <;> simp [passed]

/-! ## The step -/

/-- Settles O1: by the two cases of the queue. -/
theorem stepRunsFrontCommand : Obligations.StepRunsFrontCommand := by
  unfold Obligations.StepRunsFrontCommand
  refine ⟨fun _ _ => rfl, fun s empty => ?_⟩
  unfold step; rw [empty]

/-- Every command keeps soundness, those of the full reset by their initial values. -/
theorem exec_sound {c : Instr} {s u : State} (h : s.Sound) (run : exec c s = .next u) : u.Sound := by
  by_cases begins : ∃ e, c = .fullReset e
  · obtain ⟨e, rfl⟩ := begins
    cases run; exact duringFullReset_sound _ _ _
  by_cases ends : ∃ t p, c = .fullResetEnd t p
  · obtain ⟨t, p, rfl⟩ := ends
    cases run
    rcases fullResetEnds_cases p t s with e | e <;> rw [e]
    · have k := afterFullReset_sound p (max s.now t)
      exact ⟨k.queue, k.claims, k.avoid, k.offers, k.nets, k.compare, k.owned⟩
    · exact startEvent_sound t h
  obtain ⟨t, v, runs, keeps, -⟩ := (takenAsEvent c (fun e k => begins ⟨e, k⟩) (fun t p k => ends ⟨t, p, k⟩)).next s
  cases runs.symm.trans run
  exact keeps.sound (startEvent_sound t h)

/-- Settles O7: an idle step changes nothing, and each command keeps soundness (`Keeps`, `sound_of_initial`). -/
theorem everyStepKeepsSoundness : Obligations.EveryStepKeepsSoundness := by
  unfold Obligations.EveryStepKeepsSoundness
  intro s u h run
  unfold step at run
  split at run
  next => cases run; exact h
  next c rest _ =>
    exact exec_sound (s := { s with pending := rest }) ⟨h.queue, h.claims, h.avoid, h.offers, h.nets, h.compare, h.owned⟩
      run

/-- Settles O2: the commands of the full reset by their own states, every other one as an event. -/
theorem everyCommandAnswersNext : Obligations.EveryCommandAnswersNext := by
  unfold Obligations.EveryCommandAnswersNext
  intro c s
  by_cases begins : ∃ e, c = .fullReset e
  · obtain ⟨e, rfl⟩ := begins
    exact ⟨_, rfl, rfl, le_max_left _ _, fun _ => rfl, fun k => absurd rfl (k e)⟩
  by_cases ends : ∃ t p, c = .fullResetEnd t p
  · obtain ⟨t, p, rfl⟩ := ends
    refine ⟨_, rfl, ?_, ?_, fun k => absurd rfl (k t p), fun _ k => absurd rfl (k t p)⟩ <;>
      rcases fullResetEnds_cases p t s with e | e <;> rw [e]
    · rfl
    · exact le_max_left _ _
    · exact le_max_left _ _
  obtain ⟨t, u, run, keeps, -⟩ := (takenAsEvent c (fun e k => begins ⟨e, k⟩) (fun t p k => ends ⟨t, p, k⟩)).next s
  exact ⟨u, run, keeps.pending, keeps.now ▸ le_max_left _ _, fun _ => keeps.straps, fun _ _ => keeps.dup⟩

/-- Settles O4: an event during a full reset takes its time only. -/
theorem nothingHappensDuringFullReset : Obligations.NothingHappensDuringFullReset := by
  unfold Obligations.NothingHappensDuringFullReset
  intro c s reset notBegin notEnd
  obtain ⟨t, u, run, -, idle⟩ := (takenAsEvent c notBegin notEnd).next s
  exact ⟨t, by rw [run, idle reset]⟩

/-! ## What a full reset leaves -/

/-- R140: every lane is BUSY, unowned, without carrier or quarantine, quiet since the reset. -/
theorem LaneEntry.reset_fields (t : Time) (x : LaneEntry) (h : x = LaneEntry.reset t) :
    x.occupancy = .busy ∧ x.owner = none ∧ x.carrierA = false ∧ x.carrierB = false ∧ x.quietSince = some t ∧
      x.quarantineUntil = none ∧ x.supervised = false ∧ x.gapStart = none := by
  subst h; exact ⟨rfl, rfl, rfl, rfl, rfl, rfl, rfl, rfl⟩

/-- R140: an engine without a user, its generator and checker idle and its counts 0. -/
theorem Engine.idle_fields (x : Engine) (h : x = Engine.idle) :
    x.user = none ∧ x.lane = none ∧ x.generator = .idle ∧ x.checker = .idle ∧ x.steady = 0 ∧ x.restarts = 0 ∧
      x.compared = 0 ∧ x.errors = 0 ∧ x.run = 0 ∧ x.compare = 0 := by
  subst h; exact ⟨rfl, rfl, rfl, rfl, rfl, rfl, rfl, rfl, rfl, rfl⟩

/-- One value for every lane. -/
theorem PerLane.get_all {α : Type} (x : α) (l : Lane) : (PerLane.all x).get l = x := by cases l <;> rfl

/-- R152: a switch in its reset condition is silent at every destination. -/
theorem destHears_of_reset {u : State} (h : u.csw = Switch.reset) (d : Dest) : destHears u d = .silence := by
  have slot : Switch.reset.slot d = Slot.empty := by
    cases d with
    | speaker => rfl
    | modTx m => cases m <;> rfl
    | lane l => cases l <;> rfl
  simp [destHears, h, slot, Slot.empty]

theorem duringFullReset_lane (t : Time) (k : ResetCause) (s : State) (l : Lane) :
    (duringFullReset t k s).lane l = LaneEntry.reset (max s.now t) := PerLane.get_all _ l

theorem duringFullReset_engine (t : Time) (k : ResetCause) (s : State) (e : EngineId) :
    (duringFullReset t k s).engine e = Engine.idle := by cases e <;> rfl

theorem duringFullReset_car (t : Time) (k : ResetCause) (s : State) (m : Mod) :
    (duringFullReset t k s).car m = none := by cases m <;> rfl

theorem duringFullReset_mod (t : Time) (k : ResetCause) (s : State) (m : Mod) :
    (duringFullReset t k s).mod m = Module.absent := by cases m <;> rfl

/-- Settles O3: field by field of the state during a full reset, with the lines that it drives (R175). -/
theorem fullResetEndsEverything : Obligations.FullResetEndsEverything := by
  unfold Obligations.FullResetEndsEverything
  intro t k s
  refine ⟨duringFullReset t k s, rfl, rfl, rfl, ?_, ?_, ?_, rfl, rfl, rfl, rfl, rfl,
    fun m => ⟨duringFullReset_car t k s m, rfl⟩, fun _ _ => rfl, rfl, rfl, destHears_of_reset rfl, rfl, rfl, rfl, rfl, rfl,
    duringFullReset_mod t k s, rfl, fun l => LaneEntry.reset_fields _ _ (duringFullReset_lane t k s l),
    fun e => Engine.idle_fields _ (duringFullReset_engine t k s e), rfl, rfl, rfl, rfl, rfl, rfl, rfl, rfl, rfl, rfl⟩
  · rintro rfl; rfl
  · rintro rfl running; show holdOf .pin (max s.now t) s = none; simp [holdOf, running]
  · rintro rfl running; show holdOf .pin (max s.now t) s = s.powerOnHold; simp [holdOf, running]

/-- R119: a fitted position starts POWERING with everything else initial; another stays absent. -/
theorem Module.start_fields (fitted : Bool) (now : Time) :
    (fitted = true → (Module.start fitted now).fitted = true ∧ (Module.start fitted now).state = .powering ∧
      (Module.start fitted now).power = true ∧ (Module.start fitted now).poweredAt = now ∧
      (Module.start fitted now).poweringDeadline = some (now + ms 15000) ∧ (Module.start fitted now).table = [] ∧
      (Module.start fitted now).link = false ∧ (Module.start fitted now).selected = none ∧
      (Module.start fitted now).inFlight = none ∧ (Module.start fitted now).pendingOrder = none ∧
      (Module.start fitted now).timeouts = 0 ∧ (Module.start fitted now).powerCycles = 0 ∧
      (Module.start fitted now).lastScan = none ∧ (Module.start fitted now).rescanDue = none ∧
      (Module.start fitted now).progressDeadline = none ∧ (Module.start fitted now).linkErrors = 0 ∧
      (Module.start fitted now).callInProgress = false) ∧
    (fitted = false → Module.start fitted now = Module.absent) := by
  constructor
  · rintro rfl; exact ⟨rfl, rfl, rfl, rfl, rfl, rfl, rfl, rfl, rfl, rfl, rfl, rfl, rfl, rfl, rfl, rfl, rfl⟩
  · rintro rfl; rfl

/-- R5: the phase that a full reset leaves, and the first due time of STARTING. -/
theorem startSchedule_sched (s : State) :
    ((startSchedule s).sched.phase =
      if s.own = 0 ∨ s.straps.offer = false ∨ (s.straps.modA = false ∧ s.straps.modB = false) then .silent else .starting) ∧
    ((startSchedule s).sched.phase = .starting →
      (startSchedule s).sched.firstDue = some (s.now + ms (500 + 20 * s.own))) := by
  unfold startSchedule
  dsimp only
  split
  next => exact ⟨rfl, fun k => by cases k⟩
  next => exact ⟨rfl, fun _ => rfl⟩

/-- A station number is 0 as a word when it is 0 as a number. -/
theorem station_toNat_eq_zero (x : BitVec 5) : x.toNat = 0 ↔ x = 0 := by
  constructor
  · intro h; exact BitVec.eq_of_toNat_eq h
  · rintro rfl; rfl

/-- Settles O5: inside the 50 ms only the time moves; after them the straps are latched and each block starts. -/
theorem fullResetEndStartsTheStation : Obligations.FullResetEndStartsTheStation := by
  unfold Obligations.FullResetEndStartsTheStation
  refine ⟨fun t d pins s r hold early => ?_, fun t pins s r held => ?_⟩
  · have waits : passed s.powerOnHold (max s.now t) = false := by simpa [hold, passed] using early
    exact congrArg Host.Outcome.next (fullResetEnds_of_not pins (by rw [waits, Bool.and_false]))
  have p := (passed_iff s.powerOnHold (max s.now t)).mpr held
  obtain ⟨phase, firstDue⟩ := startSchedule_sched
    { State.reset with
      now := max s.now t, straps := pins,
      modules := { a := Module.start pins.modA (max s.now t), b := Module.start pins.modB (max s.now t) },
      lanes := PerLane.all (LaneEntry.reset (max s.now t)),
      button := ButtonFilter.reset (max s.now t),
      lamp := Lamp.start (if pins.station = 0 then .fault else .dark) (max s.now t),
      supply := SupplyMonitor.reset (max s.now t), band := Band.reset (max s.now t) }
  simp only [State.own, station_toNat_eq_zero] at phase
  refine ⟨_, congrArg Host.Outcome.next (fullResetEnds_of_passed pins r p), rfl, rfl, rfl, rfl, rfl, rfl, rfl, rfl,
    by intro m; cases m <;> rfl, ?_, fun l => ?_, fun e => Engine.idle_fields _ (by cases e <;> rfl), rfl, rfl, rfl, rfl, rfl,
    rfl, rfl, rfl, rfl, rfl, rfl, rfl, rfl, phase, firstDue⟩
  · intro m fitted isA isB
    cases m with
    | a => rw [isA rfl]; exact Module.start_fields _ _
    | b => rw [isB rfl]; exact Module.start_fields _ _
  · obtain ⟨busy, unowned, quietA, quietB, quiet, free, unsupervised, noGap⟩ :=
      LaneEntry.reset_fields (max s.now t) _ (PerLane.get_all _ l)
    exact ⟨busy, unowned, free, quiet, quietA, quietB, unsupervised, noGap⟩

end Sys2Proof.Machine

/-! # The pattern and its predictor (07, 7.3) -/

namespace Sys2Proof.Machine

/-! ## The register (R130) -/

/-- A bit that enters is stage 1, and every stage moves up. -/
theorem shiftIn_getLsbD (r : BitVec 15) (b : Bool) (i : Nat) :
    (shiftIn r b).getLsbD i = if i = 0 then b else decide (i < 15) && r.getLsbD (i - 1) := by
  rcases Nat.eq_zero_or_pos i with rfl | positive
  · cases b <;> simp [shiftIn]
  · cases b <;> simp [shiftIn, BitVec.getLsbD_one, show i ≠ 0 by omega, show ¬ i < 1 by omega]

/-- R130: a register that becomes zero was zero: its stages 1 to 14 have moved up, and stage 15 equals stage 14. -/
theorem eq_zero_of_shiftIn_nextBit {r : BitVec 15} (zero : shiftIn r (nextBit r) = 0) : r = 0 := by
  have bit (i : Nat) : (shiftIn r (nextBit r)).getLsbD i = false := by rw [zero]; simp
  have low (i : Nat) (h : i < 14) : r.getLsbD i = false := by
    have moved := bit (i + 1)
    rw [shiftIn_getLsbD, if_neg (by omega), decide_eq_true (by omega)] at moved
    exact moved
  have top : r.getLsbD 14 = false := by
    have entered := bit 0
    rw [shiftIn_getLsbD, if_pos rfl, nextBit, low 13 (by decide)] at entered
    simpa using entered
  apply BitVec.eq_of_getLsbD_eq
  intro i h
  rcases Nat.lt_or_ge i 14 with lower | upper
  · rw [low i lower]; simp
  · rw [show i = 14 by omega, top]; simp

/-- R130: no register that runs freely becomes zero. -/
theorem freeRun_ne_zero (n : Nat) (r : BitVec 15) (h : r ≠ 0) : freeRun n r ≠ 0 := by
  induction n generalizing r with
  | zero => exact h
  | succ n ih => exact ih _ fun zero => h (eq_zero_of_shiftIn_nextBit zero)

theorem freeRun_add (m n : Nat) (r : BitVec 15) : freeRun (m + n) r = freeRun n (freeRun m r) := by
  induction m generalizing r with
  | zero => rw [Nat.zero_add]; rfl
  | succ m ih => rw [Nat.succ_add]; exact ih _

/-- R130: no seed is zero. -/
theorem seedOf_ne_zero (station tag : Nat) : seedOf station tag ≠ 0 := by
  unfold seedOf
  dsimp only
  split
  next => decide
  next nonzero =>
    intro zero
    have value := congrArg BitVec.toNat zero
    have bound : (station * 256 + tag) % 32767 < 32767 := Nat.mod_lt _ (by decide)
    rw [BitVec.toNat_ofNat, Nat.mod_eq_of_lt (by omega)] at value
    exact nonzero value

/-! ## A word and its register -/

theorem patternBits_register (n i : Nat) (r : BitVec 15) (acc : BitVec 32) : (patternBits n i r acc).2 = freeRun n r := by
  induction n generalizing i r acc with
  | zero => rfl
  | succ n ih => exact ih _ _ _

/-- The bits of a word below the place reached stay. -/
theorem patternBits_below (n i : Nat) (r : BitVec 15) (acc : BitVec 32) {j : Nat} (h : j < i) :
    (patternBits n i r acc).1.getLsbD j = acc.getLsbD j := by
  induction n generalizing i r acc with
  | zero => rfl
  | succ n ih =>
    rw [patternBits, ih _ _ _ (by omega)]
    split
    next => simp [h]
    next => rfl

/-- A word brings, from the place reached, the bits that the register brings out. -/
theorem patternBits_getLsbD (n i : Nat) (r : BitVec 15) (acc : BitVec 32) (clear : ∀ j, i ≤ j → acc.getLsbD j = false)
    {k : Nat} (h : k < n) (fits : i + n ≤ 32) :
    (patternBits n i r acc).1.getLsbD (i + k) = nextBit (freeRun k r) := by
  induction n generalizing i r acc k with
  | zero => omega
  | succ n ih =>
    rw [patternBits]
    cases k with
    | zero =>
      rw [show i + 0 = i from rfl, patternBits_below _ _ _ _ (show i < i + 1 by omega)]
      have here := clear i (le_refl i)
      cases bit : nextBit r
      · simpa [freeRun, bit] using here
      · simp [freeRun, bit, show i < 32 by omega]
    | succ k =>
      rw [show i + (k + 1) = i + 1 + k by omega]
      refine ih (i + 1) _ _ (fun j hj => ?_) (by omega) (by omega)
      have above := clear j (by omega)
      cases bit : nextBit r
      · simpa using above
      · simp [above, show ¬ j < i by omega]; omega

/-- Two registers agree in their first `k` stages. -/
def agreeBelow (k : Nat) (x r : BitVec 15) : Prop := ∀ i < k, x.getLsbD i = r.getLsbD i

theorem agreeBelow_shiftIn {k : Nat} {x r : BitVec 15} (h : agreeBelow k x r) (b : Bool) :
    agreeBelow (k + 1) (shiftIn x b) (shiftIn r b) := by
  intro i hi
  rw [shiftIn_getLsbD, shiftIn_getLsbD]
  split
  next => rfl
  next => rw [h (i - 1) (by omega)]

/-- R132: each bit loaded that the register has brought out makes one more stage agree. -/
theorem agreeBelow_loadBits (n i : Nat) (w : BitVec 32) {k : Nat} {x r : BitVec 15} (h : agreeBelow k x r)
    (bits : ∀ j < n, w.getLsbD (i + j) = nextBit (freeRun j r)) :
    agreeBelow (k + n) (loadBits n i w x) (freeRun n r) := by
  induction n generalizing i k x r with
  | zero => exact h
  | succ n ih =>
    rw [loadBits, freeRun, show w.getLsbD i = nextBit r from bits 0 (by omega), show k + (n + 1) = k + 1 + n by omega]
    refine ih (i + 1) (agreeBelow_shiftIn h _) fun j hj => ?_
    rw [show i + 1 + j = i + (j + 1) by omega, bits (j + 1) (by omega)]
    rfl

/-- R132: fifteen true bits of a word fix the register, whatever it held. -/
theorem loadBits_nextWord (r x : BitVec 15) : loadBits 15 0 (nextWord r).1 x = freeRun 15 r := by
  have agree := agreeBelow_loadBits 15 0 (nextWord r).1 (k := 0) (x := x) (r := r) (fun _ h => absurd h (by omega))
    fun j hj => patternBits_getLsbD 32 0 r 0#32 (fun _ _ => by simp) (by omega) (by omega)
  exact BitVec.eq_of_getLsbD_eq fun i hi => agree i (by omega)

/-- R132: the register after a word is 32 bits further. -/
theorem nextWord_register (r : BitVec 15) : (nextWord r).2 = freeRun 32 r := patternBits_register 32 0 r 0#32

/-- Settles O10: a zero register comes from a zero one only, and fifteen shared bits make two registers equal. -/
theorem patternIsFollowed : Obligations.PatternIsFollowed := by
  unfold Obligations.PatternIsFollowed
  refine ⟨seedOf_ne_zero, freeRun_ne_zero, fun r x => ⟨?_, nextWord_register r⟩⟩
  rw [loadBits_nextWord, nextWord_register]
  exact (freeRun_add 15 17 r).symm

end Sys2Proof.Machine

/-! # The lane mask (07, 7.1, 7.2) -/

namespace Sys2Proof.Machine

/-- Bit n − 1 is the bit of lane n and of no other. -/
theorem laneBit_getLsbD (k l : Lane) : (1#6 <<< (laneNumber k - 1)).getLsbD (laneNumber l - 1) = decide (l = k) := by
  cases k <;> cases l <;> decide

/-- A mask made of the bits of some lanes, one by one, holds those lanes besides what it held. -/
theorem inMask_foldl (ls : List Lane) (acc : LaneMask) (l : Lane) :
    inMask (ls.foldl (fun acc k => acc ||| (1#6 <<< (laneNumber k - 1))) acc) l = (inMask acc l || decide (l ∈ ls)) := by
  induction ls generalizing acc with
  | nil => simp
  | cons k ls ih =>
    have bit : inMask (acc ||| (1#6 <<< (laneNumber k - 1))) l = (inMask acc l || decide (l = k)) := by
      rw [inMask, BitVec.getLsbD_or, laneBit_getLsbD]; rfl
    rw [List.foldl_cons, ih, bit, Bool.or_assoc]
    simp [List.mem_cons, Bool.decide_or]

/-- R120: what free for choosing is. -/
theorem freeForChoosing_iff (x : LaneEntry) :
    x.freeForChoosing = true ↔ x.occupancy = .free ∧ x.quarantineUntil = none ∧ x.owner = none := by
  simp [LaneEntry.freeForChoosing, and_assoc]

/-- Settles O14: the mask collects the lanes that are free for choosing. -/
theorem laneMaskHoldsTheFreeLanes : Obligations.LaneMaskHoldsTheFreeLanes := by
  unfold Obligations.LaneMaskHoldsTheFreeLanes
  intro s l
  have listed : l ∈ allLanes := by cases l <;> decide
  have empty : inMask 0#6 l = false := by simp [inMask]
  rw [State.laneMask, inMask_foldl, empty, Bool.false_or, decide_eq_true_iff, List.mem_filter, ← freeForChoosing_iff]
  exact and_iff_right listed

end Sys2Proof.Machine

/-! # Frames on the line (10, 10.1, 10.2) -/

namespace Sys2Proof.Machine

/-! ## The check (R162) -/

theorem be16_length (n : Nat) : (be16 n).length = 2 := rfl

theorem frameOctets_length (sender : Octet) (f : Frame) : (frameOctets sender f).length = f.payload.length + 6 := by
  simp [frameOctets, be16_length]

/-- R162: octets with their check behind them pass it. -/
theorem checkGood_append_check (body : List Octet) (h : 4 ≤ body.length) :
    checkGood (body ++ be16 (frameCheck body).toNat) = true := by
  have place : (body ++ be16 (frameCheck body).toNat).length - 2 = body.length := by simp [be16_length]
  have long : 6 ≤ (body ++ be16 (frameCheck body).toNat).length := by simp [be16_length]; omega
  unfold checkGood
  simp only [place, List.drop_left, List.take_left, decide_eq_true long, Bool.true_and, beq_self_eq_true]

theorem frameOctets_checkGood (sender : Octet) (f : Frame) : checkGood (frameOctets sender f) = true :=
  checkGood_append_check _ (by simp)

/-! ## The bits on the line -/

/-- A run of pieces of equal length is indexed by the piece and the place in it. -/
theorem getElem?_flatMap_of_length {α β : Type} {n : Nat} (f : α → List β) (length : ∀ x, (f x).length = n)
    (xs : List α) (j : Nat) {k : Nat} (h : k < n) :
    (xs.flatMap f)[n * j + k]? = xs[j]?.bind fun x => (f x)[k]? := by
  induction xs generalizing j with
  | nil => simp
  | cons x xs ih =>
    rw [List.flatMap_cons]
    cases j with
    | zero => rw [Nat.mul_zero, Nat.zero_add, List.getElem?_append_left (by rw [length]; exact h)]; rfl
    | succ j =>
      rw [List.getElem?_append_right (by rw [length, Nat.mul_succ]; omega), length,
        show n * (j + 1) + k - n = n * j + k by rw [Nat.mul_succ]; omega, ih]
      rfl

theorem lineBits_length (o : Octet) : (lineBits o).length = 10 := rfl

theorem frameBits_length (sender : Octet) (f : Frame) :
    (frameBits sender f).length = (f.payload.length + 6) * 10 := by
  simp [frameBits, List.length_flatMap, lineBits_length, frameOctets_length]

/-- R162: bit `k` of octet `j` is bit `10 j + k` of the frame. -/
theorem frameBits_getElem? {sender : Octet} {f : Frame} {j k : Nat} {o : Octet}
    (octet : (frameOctets sender f)[j]? = some o) (h : k < 10) : (frameBits sender f)[10 * j + k]? = (lineBits o)[k]? := by
  rw [frameBits, getElem?_flatMap_of_length lineBits lineBits_length _ _ h, octet]; rfl

/-- R162: the data bits go out bit 7 first. -/
theorem lineBits_data (o : Octet) {k : Nat} (first : 1 ≤ k) (last : k ≤ 8) : (lineBits o)[k]? = some (o.getLsbD (8 - k)) := by
  have place : k = 1 ∨ k = 2 ∨ k = 3 ∨ k = 4 ∨ k = 5 ∨ k = 6 ∨ k = 7 ∨ k = 8 := by omega
  rcases place with rfl | rfl | rfl | rfl | rfl | rfl | rfl | rfl <;> rfl

/-- The bit time that a moment lies in. -/
theorem bitTime_index {since now i : Nat} (lower : since + i * 5 ≤ now) (upper : now < since + (i + 1) * 5) :
    (now - since) / 5 = i := by omega

/-- The bit times that have passed since the frame began. -/
theorem le_bitTime_index {since now n : Nat} (h : since + n * 50 ≤ now) : n * 10 ≤ (now - since) / 5 := by omega

/-- R162: within bit time `i` of a frame on the line, the station puts out its bit `i`, and past the last leaves the band at
rest. -/
theorem bandLine_bit {s : State} {h : Hand} {f : Frame} (hand : s.band.hand = some h) (line : h.line = some f) {i : Nat}
    (lower : s.band.sendSince + i * 5 ≤ s.now) (upper : s.now < s.band.sendSince + (i + 1) * 5) :
    bandLine s = ((frameBits (oct s.own) f)[i]?).getD true := by
  have place : (s.now - s.band.sendSince) / bitTime = i := bitTime_index lower upper
  rw [bandLine_sending (f := f) (by rw [hand]; exact line), place, List.getD_eq_getElem?_getD]

/-- Settles O8: the check stands behind what it covers, and a frame's bits are its octets' bits in turn. -/
theorem sentFramesPassTheirCheck : Obligations.SentFramesPassTheirCheck := by
  unfold Obligations.SentFramesPassTheirCheck
  refine ⟨fun sender f _ => ⟨frameOctets_checkGood sender f, frameOctets_length sender f⟩, fun s rest => ?_,
    fun s h f hand line => ⟨fun j k o octet lower upper => ?_, fun past => ?_⟩⟩
  · apply bandLine_rest
    cases hand : s.band.hand with
    | none => rfl
    | some h => exact rest h hand
  · have bit := bandLine_bit hand line lower upper
    refine ⟨fun start => ?_, fun first last => ?_, fun stop => ?_⟩
    · rw [bit, frameBits_getElem? octet (by omega), start]; rfl
    · rw [bit, frameBits_getElem? octet (by omega), lineBits_data o first last]; rfl
    · rw [bit, frameBits_getElem? octet (by omega), stop]; rfl
  · have beyond : (frameBits (oct s.own) f).length ≤ (s.now - s.band.sendSince) / bitTime := by
      rw [frameBits_length]; exact le_bitTime_index past
    rw [bandLine_sending (f := f) (by rw [hand]; exact line), List.getD_eq_getElem?_getD, List.getElem?_eq_none beyond]
    rfl

end Sys2Proof.Machine

/-! # The OFFER payload (01, 1.3) -/

namespace Sys2Proof.Machine

theorem oct_toNat (n : Nat) : (oct n).toNat = n % 256 := BitVec.toNat_ofNat n 8

theorem summaryOctets_length (x : Option Summary) : (summaryOctets x).length = 6 := by cases x <;> rfl

/-- Three octets of a code bring the code back. -/
theorem be24_value {n : Nat} (h : n ≤ 999999) : n / 65536 % 256 * 65536 + n / 256 % 256 * 256 + n % 256 = n := by omega

theorem summaryStateCode_lt_four (x : SummaryState) : summaryStateCode x < 4 := by cases x <;> decide

/-- The first octet of a summary, as a number. -/
theorem summaryHead_lt (x : Summary) : 1 + 2 * summaryStateCode x.state + 16 * boolNat x.best.isSome < 256 := by
  have := summaryStateCode_lt_four x.state
  cases x.best <;> simp [boolNat] <;> omega

/-- R11: a summary in range reads back from its six octets, wherever they stand in the payload. -/
theorem summaryAt_summaryOctets (p : List Octet) (i : Nat) (x : Option Summary) (range : ∀ y, x = some y → y.inRange)
    (octets : ∀ k < 6, p.getD (i + k) 0 = (summaryOctets x).getD k 0) : summaryAt p i = x := by
  have at' (k : Nat) (h : k < 6) : octAt p (i + k) = ((summaryOctets x).getD k 0).toNat := by rw [octAt, octets k h]
  have h0 : octAt p i = _ := at' 0 (by decide)
  have h1 := at' 1 (by decide)
  have h2 : octAt p (i + 1 + 1) = _ := at' 2 (by decide)
  have h3 : octAt p (i + 1 + 2) = _ := at' 3 (by decide)
  have h4 := at' 4 (by decide)
  have h5 := at' 5 (by decide)
  cases x with
  | none => unfold summaryAt; rw [h0]; rfl
  | some x =>
    obtain ⟨state, best, quality, usable⟩ := x
    obtain ⟨code, quality63, usable8⟩ := range _ rfl
    simp only [summaryOctets, be24, List.cons_append, List.nil_append, List.getD_cons_zero, List.getD_cons_succ,
      oct_toNat] at h0 h1 h2 h3 h4 h5
    have q : min (quality % 256) 63 = quality := by simp only at quality63; omega
    have u : min (usable % 256) 8 = usable := by simp only at usable8; omega
    unfold summaryAt be24At
    rw [h0, h1, h2, h3, h4, h5]
    cases best with
    | none => cases state <;> simp [summaryStateCode, boolNat, q, u]
    | some c =>
      have small : @LE.le Nat _ c 999999 := code c rfl
      simp only [Option.getD_some, be24_value small]
      cases state <;> simp [summaryStateCode, boolNat, q, u, small, Nat.not_lt.mpr small]

theorem offerPayload_length (c : Content) : (offerFrame c).payload.length = 14 := by
  simp [offerFrame, summaryOctets_length]

/-- The first octet of an OFFER carries the flag below the supply. -/
theorem offerPayload_head (c : Content) : octAt (offerFrame c).payload 0 = boolNat c.offering + 2 * supplyCode c.supply := by
  show (oct _).toNat = _
  rw [oct_toNat]
  cases c.offering <;> cases c.supply <;> rfl

theorem offerPayload_depth {c : Content} (h : c.depth ≤ 6) : min (octAt (offerFrame c).payload 1) 6 = c.depth := by
  show min (oct c.depth).toNat 6 = _
  rw [oct_toNat]; omega

theorem offerPayload_a (c : Content) {k : Nat} (h : k < 6) :
    (offerFrame c).payload.getD (2 + k) 0 = (summaryOctets c.a).getD k 0 := by
  simp only [offerFrame, List.cons_append, List.nil_append, show 2 + k = k + 1 + 1 by omega, List.getD_eq_getElem?_getD,
    List.getElem?_cons_succ]
  rw [List.getElem?_append_left (by rw [summaryOctets_length]; exact h)]

theorem offerPayload_b (c : Content) (k : Nat) : (offerFrame c).payload.getD (8 + k) 0 = (summaryOctets c.b).getD k 0 := by
  simp only [offerFrame, List.cons_append, List.nil_append, show 8 + k = 6 + k + 1 + 1 by omega, List.getD_eq_getElem?_getD,
    List.getElem?_cons_succ]
  rw [List.getElem?_append_right (by rw [summaryOctets_length]; omega), summaryOctets_length,
    Nat.add_sub_cancel_left]

/-- Settles O9: flag, supply, depth and both summaries read back from their octets. -/
theorem offerPayloadReadsBack : Obligations.OfferPayloadReadsBack := by
  unfold Obligations.OfferPayloadReadsBack
  intro c depth rangeA rangeB
  have a := summaryAt_summaryOctets _ 2 c.a rangeA fun k h => offerPayload_a c h
  have b := summaryAt_summaryOctets _ 8 c.b rangeB fun k _ => offerPayload_b c k
  unfold readOffer
  rw [if_neg (by simp [offerPayload_length]), offerPayload_head, offerPayload_depth depth, a, b]
  cases c.offering <;> cases c.supply <;> simp [boolNat, supplyCode]

end Sys2Proof.Machine

/-! # The ranking (02) -/

namespace Sys2Proof.Machine

/-! ## The order of the list (2.5) -/

/-- R29: `x` stands before `y`, or shares all its keys. -/
def Candidate.stands (x y : Candidate) : Prop :=
  y.score < x.score ∨ (x.score = y.score ∧ (x.h < y.h ∨ (x.h = y.h ∧ @LE.le Nat _ x.station y.station)))

theorem Candidate.before_iff (x y : Candidate) : x.before y = true ↔ x.stands y := by
  unfold Candidate.before Candidate.stands
  split
  next same =>
    split
    next level => simp [same, level]
    next apart => simp [same, apart]
  next apart => simp [apart]

theorem Candidate.stands_of_not {x y : Candidate} (h : ¬ x.stands y) : y.stands x := by
  unfold Candidate.stands at *; omega

theorem Candidate.stands_trans {x y z : Candidate} (h : x.stands y) (k : y.stands z) : x.stands z := by
  unfold Candidate.stands at *; omega

theorem insertCandidate_perm (x : Candidate) (t : List Candidate) : (insertCandidate x t).Perm (x :: t) := by
  induction t with
  | nil => exact .refl _
  | cons y t ih =>
    rw [insertCandidate]
    split
    next => exact .refl _
    next => exact (ih.cons y).trans (.swap x y t)

theorem insertCandidate_sorted (x : Candidate) {t : List Candidate} (h : t.Pairwise Candidate.stands) :
    (insertCandidate x t).Pairwise Candidate.stands := by
  induction t with
  | nil => simp [insertCandidate]
  | cons y t ih =>
    obtain ⟨ahead, rest⟩ := List.pairwise_cons.mp h
    rw [insertCandidate]
    split
    next before =>
      have first := (Candidate.before_iff x y).mp before
      refine List.pairwise_cons.mpr ⟨fun z hz => ?_, h⟩
      rcases List.mem_cons.mp hz with rfl | later
      · exact first
      · exact Candidate.stands_trans first (ahead z later)
    next behind =>
      refine List.pairwise_cons.mpr ⟨fun z hz => ?_, ih rest⟩
      rcases List.mem_cons.mp ((insertCandidate_perm x t).mem_iff.mp hz) with rfl | later
      · exact Candidate.stands_of_not fun k => behind ((Candidate.before_iff z y).mpr k)
      · exact ahead z later

theorem candidateList_perm (s : State) : (candidateList s).Perm (candidates s) := by
  unfold candidateList
  induction candidates s with
  | nil => exact .refl _
  | cons x t ih => exact (insertCandidate_perm x _).trans (ih.cons x)

theorem candidateList_sorted (s : State) : (candidateList s).Pairwise Candidate.stands := by
  unfold candidateList
  induction candidates s with
  | nil => exact .nil
  | cons x t ih => exact insertCandidate_sorted x ih

/-- R17: there is no outcome when there is no candidate. -/
theorem ranking_eq_none_iff (s : State) : ranking s = none ↔ candidates s = [] := by
  rw [ranking, List.head?_eq_none_iff]
  exact ⟨fun h => List.nil_perm.mp (h ▸ candidateList_perm s), fun h => List.perm_nil.mp (h ▸ candidateList_perm s)⟩

/-- R17: the outcome is a candidate, and none scores more. -/
theorem ranking_best {s : State} {c : Candidate} (h : ranking s = some c) :
    c ∈ candidates s ∧ ∀ d ∈ candidates s, d.score ≤ c.score := by
  obtain ⟨rest, list⟩ := List.head?_eq_some_iff.mp h
  have ahead : ∀ d ∈ rest, c.stands d := by
    have sorted := candidateList_sorted s
    rw [list] at sorted
    exact (List.pairwise_cons.mp sorted).1
  have mem (d : Candidate) : d ∈ candidates s ↔ d = c ∨ d ∈ rest := by
    rw [← (candidateList_perm s).mem_iff, list, List.mem_cons]
  refine ⟨(mem c).mpr (.inl rfl), fun d hd => ?_⟩
  rcases (mem d).mp hd with rfl | later
  · exact le_refl _
  · have := ahead d later
    unfold Candidate.stands at this; omega

/-- R28: the clamp. -/
theorem Candidate.score_clamp (c : Candidate) :
    (1000 < c.raw → c.score = 1000) ∧ (c.raw ≤ 0 → c.score = 0) ∧
      (0 < c.raw → c.raw ≤ 1000 → (c.score : Int) = c.raw) ∧ c.score ≤ 1000 := by
  unfold Candidate.score; omega

/-! ## The best of some qualities -/

theorem foldl_max_spec (l : List Nat) (n : Nat) :
    (l.foldl max n = n ∨ l.foldl max n ∈ l) ∧ n ≤ l.foldl max n ∧ ∀ y ∈ l, y ≤ l.foldl max n := by
  induction l generalizing n with
  | nil => simp
  | cons x l ih =>
    obtain ⟨found, least, above⟩ := ih (max n x)
    simp only [List.foldl_cons, List.mem_cons, forall_eq_or_imp]
    refine ⟨?_, by omega, by omega, above⟩
    rcases found with kept | found
    · rw [kept]; omega
    · exact .inr (.inr found)

/-- The highest of some numbers is the one among them that none exceeds. -/
theorem highest_eq_iff {l : List Nat} (some : l ≠ []) (q : Nat) : highest l = q ↔ q ∈ l ∧ ∀ y ∈ l, y ≤ q := by
  obtain ⟨found, -, above⟩ := foldl_max_spec l 0
  have mem : highest l ∈ l := by
    rcases found with zero | found
    · obtain ⟨x, rest, rfl⟩ := List.exists_cons_of_ne_nil some
      have := above x (by simp)
      rw [zero] at this
      rw [highest, zero]
      simp [show x = 0 by omega]
    · exact found
  constructor
  · rintro rfl; exact ⟨mem, above⟩
  · rintro ⟨hq, most⟩; exact Nat.le_antisymm (most _ mem) (above q hq)

/-! ## PEER candidates (R19 to R26) -/

theorem OfferEntry.mem_summaries (e : OfferEntry) (x : Summary) : x ∈ e.summaries ↔ e.a = some x ∨ e.b = some x := by
  simp [OfferEntry.summaries, Option.mem_toList]

/-- An entry has a summary of a kind when one of its positions has. -/
theorem OfferEntry.any_summaries (e : OfferEntry) (p : Summary → Bool) : e.summaries.any p = (e.a.any p || e.b.any p) := by
  unfold OfferEntry.summaries
  cases e.a <;> cases e.b <;> simp

theorem OfferEntry.freeCount_eq (e : OfferEntry) :
    e.freeCount = (e.a.any Summary.isFree).toNat + (e.b.any Summary.isFree).toNat := by
  have one (x : Option Summary) : (x.toList.filter Summary.isFree).length = (x.any Summary.isFree).toNat := by
    cases x with
    | none => rfl
    | some y => cases h : y.isFree <;> simp [h]
  rw [OfferEntry.freeCount, OfferEntry.summaries, List.filter_append, List.length_append, one, one]

/-- R22: no summary is FREE. -/
theorem OfferEntry.freeCount_eq_zero_iff (e : OfferEntry) :
    e.freeCount = 0 ↔ (e.a.any Summary.isFree || e.b.any Summary.isFree) = false := by
  rw [e.freeCount_eq]
  cases e.a.any Summary.isFree <;> cases e.b.any Summary.isFree <;> simp

/-- R19 -/
theorem OfferEntry.candidate_iff (e : OfferEntry) :
    e.candidate = true ↔
      ((e.a.any Summary.isFree || e.b.any Summary.isFree) = true ∨ e.a.any Summary.isBusy = true ∨
        e.b.any Summary.isBusy = true) ∧
      ((e.a.any Summary.isFree || e.b.any Summary.isFree) = true ∨ e.depth ≠ 6) := by
  have any : (e.summaries.any fun x => x.isFree || x.isBusy) = true ↔
      (e.a.any Summary.isFree || e.b.any Summary.isFree) = true ∨ e.a.any Summary.isBusy = true ∨
        e.b.any Summary.isBusy = true := by
    rw [e.any_summaries]
    cases e.a <;> cases e.b <;> simp [or_assoc, or_left_comm, or_comm]
  have none : (e.freeCount == 0) = !(e.a.any Summary.isFree || e.b.any Summary.isFree) := by
    rw [Bool.eq_iff_iff, beq_iff_eq, e.freeCount_eq_zero_iff, Bool.not_eq_true']
  rw [OfferEntry.candidate, Bool.and_eq_true, any, none]
  simp

/-- R21: the summaries of an entry whose quality counts: the FREE ones, and with none of them the BUSY ones. -/
def OfferEntry.counts (e : OfferEntry) : Summary → Bool :=
  if (e.a.any Summary.isFree || e.b.any Summary.isFree) = true then Summary.isFree else Summary.isBusy

/-- R21: the quality of a PEER candidate is the best of the summaries that count. -/
theorem OfferEntry.bestOf_eq_iff {e : OfferEntry} (h : e.candidate = true) (q : Nat) :
    q = e.bestOf ↔
      (∃ x, (e.a = some x ∨ e.b = some x) ∧ e.counts x = true ∧ q = x.quality) ∧
        ∀ x, (e.a = some x ∨ e.b = some x) → e.counts x = true → x.quality ≤ q := by
  have best : e.bestOf = highest ((e.summaries.filter e.counts).map Summary.quality) := by
    unfold OfferEntry.bestOf OfferEntry.counts
    simp only [e.freeCount_eq_zero_iff]
    cases e.a.any Summary.isFree || e.b.any Summary.isFree <;> rfl
  have one : e.summaries.any e.counts = true := by
    unfold OfferEntry.counts
    split
    next free => rw [e.any_summaries]; exact free
    next none =>
      rw [e.any_summaries, Bool.or_eq_true]
      exact ((e.candidate_iff.mp h).1).resolve_left none
  have some : (e.summaries.filter e.counts).map Summary.quality ≠ [] := by
    obtain ⟨x, mem, counts⟩ := List.any_eq_true.mp one
    exact List.ne_nil_of_mem (List.mem_map_of_mem (List.mem_filter.mpr ⟨mem, counts⟩))
  rw [eq_comm, best, highest_eq_iff some]
  simp only [List.mem_map, List.mem_filter, OfferEntry.mem_summaries]
  constructor
  · rintro ⟨⟨x, ⟨held, counts⟩, rfl⟩, most⟩
    exact ⟨⟨x, held, counts, rfl⟩, fun y k c => most _ ⟨y, ⟨k, c⟩, rfl⟩⟩
  · rintro ⟨⟨x, held, counts, rfl⟩, most⟩
    exact ⟨⟨x, ⟨held, counts⟩, rfl⟩, fun _ ⟨y, ⟨k, c⟩, v⟩ => v ▸ most y k c⟩

/-- R20, R25 (log 25): which entries a ranking takes. -/
theorem mem_rankedEntries (s : State) (e : OfferEntry) :
    e ∈ rankedEntries s ↔
      s.own ≠ 0 ∧ e ∈ s.offerTable ∧ s.now < e.receivedAt + entryLife ∧ e.candidate = true := by
  unfold rankedEntries
  split
  next unnumbered => simp [unnumbered]
  next numbered => simp [numbered]

theorem avoidMark_eq (s : State) (st : Station) : avoidMark s st = (s.coc.avoid.any fun k => k.station == st).toNat := by
  unfold avoidMark; cases s.coc.avoid.any fun k => k.station == st <;> rfl

theorem distance_eq (x y : Station) : distance x y = ((x : Int) - (y : Int)).natAbs := by
  unfold distance; omega

/-- The candidates of a state: the LOCAL one, and one for each entry taken. -/
theorem mem_candidates (s : State) (c : Candidate) :
    c ∈ candidates s ↔
      (localIsCandidate s = true ∧ c = localCandidate s) ∨ ∃ e ∈ rankedEntries s, peerCandidate s e = c := by
  unfold candidates
  rw [List.mem_append, List.mem_map]
  split
  next usable => simp [usable]
  next unusable => simp [unusable]

/-- A record is the PEER candidate of an entry when its fields are. -/
theorem peerCandidate_eq_iff (s : State) (e : OfferEntry) {c : Candidate} (kind : c.kind = .peer) :
    peerCandidate s e = c ↔
      c.station = e.station ∧ c.q = e.bestOf ∧ c.f = e.freeCount ∧ c.d = e.depth ∧
        c.h = ((e.station : Int) - s.own).natAbs ∧ c.a = (s.now - e.receivedAt) / ms 1000 ∧
        c.r = (if e.supply = .reserve then 1 else 0) ∧ c.v = (s.coc.avoid.any fun k => k.station == e.station).toNat ∧
        c.l = 0 := by
  have reserve : (match e.supply with | .reserve => 1 | .normal => 0 | .low => 0) = if e.supply = .reserve then 1 else 0 := by
    cases e.supply <;> rfl
  obtain ⟨k, st, q, f, d, h, a, r, v, l⟩ := c
  cases kind
  rw [← distance_eq, ← avoidMark_eq, ← reserve]
  constructor
  · intro e; cases e; exact ⟨rfl, rfl, rfl, rfl, rfl, rfl, rfl, rfl, rfl⟩
  · rintro ⟨e1, e2, e3, e4, e5, e6, e7, e8, e9⟩
    dsimp only at e1 e2 e3 e4 e5 e6 e7 e8 e9
    subst e1 e2 e3 e4 e5 e6 e7 e8 e9
    rfl

/-! ## The LOCAL candidate (R18, R21 to R26) -/

theorem State.mem_moduleList (s : State) (r : Module) : r ∈ s.moduleList ↔ ∃ m, s.mod m = r := by
  constructor
  · intro h
    rcases List.mem_pair.mp h with rfl | rfl
    · exact ⟨.a, rfl⟩
    · exact ⟨.b, rfl⟩
  · rintro ⟨m, rfl⟩; cases m <;> simp [State.moduleList, PerMod.get]

/-- R18 -/
theorem localIsCandidate_iff (s : State) : localIsCandidate s = true ↔ ∃ m, (s.mod m).usableAsPath = true := by
  simp only [localIsCandidate, List.any_eq_true, s.mem_moduleList]
  exact ⟨fun ⟨_, ⟨m, rfl⟩, h⟩ => ⟨m, h⟩, fun ⟨m, h⟩ => ⟨_, ⟨m, rfl⟩, h⟩⟩

/-- R21: the modules whose quality counts: the free ones, and with none of them those usable as a path. -/
def State.modCounts (s : State) : Module → Bool :=
  if ((s.mod .a).grantable || (s.mod .b).grantable) = true then Module.grantable else Module.usableAsPath

theorem filter_pair_isEmpty {α : Type} (p : α → Bool) (x y : α) : ([x, y].filter p).isEmpty = !(p x || p y) := by
  cases hx : p x <;> cases hy : p y <;> simp [hx, hy]

theorem filter_pair_length {α : Type} (p : α → Bool) (x y : α) :
    ([x, y].filter p).length = (p x).toNat + (p y).toNat := by
  cases hx : p x <;> cases hy : p y <;> simp [hx, hy]

theorem State.filter_grantable_isEmpty (s : State) :
    (s.moduleList.filter Module.grantable).isEmpty = !((s.mod .a).grantable || (s.mod .b).grantable) :=
  filter_pair_isEmpty Module.grantable _ _

/-- R21: the quality of the LOCAL candidate is the best of the modules that count. -/
theorem localCandidate_q_iff {s : State} (h : localIsCandidate s = true) (q : Nat) :
    q = (localCandidate s).q ↔
      (∃ m, s.modCounts (s.mod m) = true ∧ q = (s.mod m).bestQuality) ∧
        ∀ m, s.modCounts (s.mod m) = true → (s.mod m).bestQuality ≤ q := by
  have best : (localCandidate s).q = highest ((s.moduleList.filter s.modCounts).map Module.bestQuality) := by
    show (if (s.moduleList.filter Module.grantable).isEmpty = true then _ else _) = _
    rw [s.filter_grantable_isEmpty]
    unfold State.modCounts
    cases (s.mod .a).grantable || (s.mod .b).grantable <;> rfl
  have one : ∃ m, s.modCounts (s.mod m) = true := by
    unfold State.modCounts
    split
    next free =>
      rcases Bool.or_eq_true_iff.mp free with a | b
      · exact ⟨.a, a⟩
      · exact ⟨.b, b⟩
    next => exact (localIsCandidate_iff s).mp h
  have some : (s.moduleList.filter s.modCounts).map Module.bestQuality ≠ [] := by
    obtain ⟨m, counts⟩ := one
    exact List.ne_nil_of_mem
      (List.mem_map_of_mem (List.mem_filter.mpr ⟨(s.mem_moduleList _).mpr ⟨m, rfl⟩, counts⟩))
  rw [eq_comm, best, highest_eq_iff some]
  simp only [List.mem_map, List.mem_filter, s.mem_moduleList]
  constructor
  · rintro ⟨⟨_, ⟨⟨m, rfl⟩, counts⟩, rfl⟩, most⟩
    exact ⟨⟨m, counts, rfl⟩, fun n k => most _ ⟨_, ⟨⟨n, rfl⟩, k⟩, rfl⟩⟩
  · rintro ⟨⟨m, counts, rfl⟩, most⟩
    exact ⟨⟨_, ⟨⟨m, rfl⟩, counts⟩, rfl⟩, fun _ ⟨_, ⟨⟨n, e⟩, k⟩, v⟩ => by subst e v; exact most n k⟩

theorem localCandidate_f (s : State) :
    (localCandidate s).f = (s.mod .a).grantable.toNat + (s.mod .b).grantable.toNat :=
  filter_pair_length Module.grantable _ _

/-- A record is the LOCAL candidate when its fields are. -/
theorem eq_localCandidate_iff (s : State) {c : Candidate} (kind : c.kind = .loc) :
    c = localCandidate s ↔
      c.station = s.own ∧ c.q = (localCandidate s).q ∧
        c.f = (s.mod .a).grantable.toNat + (s.mod .b).grantable.toNat ∧ c.d = s.claims.length ∧ c.h = 0 ∧ c.a = 0 ∧
        c.r = 0 ∧ c.v = (s.coc.avoid.any fun k => k.station == s.own).toNat ∧ c.l = 1 := by
  rw [← localCandidate_f, ← avoidMark_eq]
  obtain ⟨k, st, q, f, d, h, a, r, v, l⟩ := c
  cases kind
  constructor
  · intro e; cases e; exact ⟨rfl, rfl, rfl, rfl, rfl, rfl, rfl, rfl, rfl⟩
  · rintro ⟨e1, e2, e3, e4, e5, e6, e7, e8, e9⟩
    dsimp only at e1 e2 e3 e4 e5 e6 e7 e8 e9
    subst e1 e2 e3 e4 e5 e6 e7 e8 e9
    rfl

/-- R3: the best quality of a module, read through its best network. -/
theorem Module.bestQuality_eq (x : Module) :
    x.bestQuality = (x.best.bind fun code => x.table.find? fun n => n.code == code).elim 0 Net.quality := by
  unfold Module.bestQuality
  cases x.best with
  | none => rfl
  | some code =>
    show qualityOf x.table code = _
    unfold qualityOf netOf
    rw [Option.bind_some]
    cases x.table.find? fun n => n.code == code <;> rfl

/-! ## One record for each station -/

theorem rankedEntries_sublist (s : State) : (rankedEntries s).Sublist s.offerTable := by
  unfold rankedEntries
  split
  next => exact List.nil_sublist _
  next => exact List.filter_sublist

/-- 2.2: a sound table gives each station one record, at most 31 in all. -/
theorem candidates_stations {s : State} (h : offerTableOk s.own s.offerTable) :
    ((candidates s).map Candidate.station).Nodup ∧ (candidates s).length ≤ 31 := by
  obtain ⟨few, rising, range⟩ := h
  have ranked := rankedEntries_sublist s
  have stations : ((rankedEntries s).map (peerCandidate s)).map Candidate.station = (rankedEntries s).map OfferEntry.station := by
    rw [List.map_map]; rfl
  have nodup : ((rankedEntries s).map OfferEntry.station).Nodup := by
    rw [List.Nodup, List.pairwise_map]
    exact (rising.sublist ranked).imp fun h => Nat.ne_of_lt h
  have count := ranked.length_le
  unfold candidates
  split
  next =>
    refine ⟨?_, by rw [List.length_append, List.length_map, List.length_singleton]; omega⟩
    rw [List.map_append, stations, List.map_singleton]
    refine List.nodup_cons.mpr ⟨fun mem => ?_, nodup⟩
    obtain ⟨e, he, own⟩ := List.mem_map.mp mem
    exact (range e (ranked.subset he)).2.2 own
  next => exact ⟨by rw [List.nil_append, stations]; exact nodup, by rw [List.nil_append, List.length_map]; omega⟩

/-! ## The statement -/

/-- R19 to R26: a PEER record is a candidate when an entry that is taken gives its fields. -/
theorem peer_mem_candidates_iff (s : State) {c : Candidate} (kind : c.kind = .peer) :
    c ∈ candidates s ↔
      s.own ≠ 0 ∧ ∃ e ∈ s.offerTable, s.now < e.receivedAt + ms 10000 ∧
        ((e.a.any Summary.isFree || e.b.any Summary.isFree) = true ∨ e.a.any Summary.isBusy = true ∨
          e.b.any Summary.isBusy = true) ∧
        ((e.a.any Summary.isFree || e.b.any Summary.isFree) = true ∨ e.depth ≠ 6) ∧ c.station = e.station ∧
        (∃ x, (e.a = some x ∨ e.b = some x) ∧ e.counts x = true ∧ c.q = x.quality) ∧
        (∀ x, (e.a = some x ∨ e.b = some x) → e.counts x = true → x.quality ≤ c.q) ∧
        c.f = (e.a.any Summary.isFree).toNat + (e.b.any Summary.isFree).toNat ∧ c.d = e.depth ∧
        c.h = ((e.station : Int) - s.own).natAbs ∧ c.a = (s.now - e.receivedAt) / ms 1000 ∧
        c.r = (if e.supply = .reserve then 1 else 0) ∧
        c.v = (s.coc.avoid.any fun k => k.station == e.station).toNat ∧ c.l = 0 := by
  rw [mem_candidates]
  constructor
  · rintro (⟨-, rfl⟩ | ⟨e, taken, rfl⟩)
    · cases kind
    obtain ⟨numbered, held, young, fit⟩ := (mem_rankedEntries s e).mp taken
    obtain ⟨station, q, f, d, h, a, r, v, l⟩ := (peerCandidate_eq_iff s e kind).mp rfl
    obtain ⟨some, room⟩ := e.candidate_iff.mp fit
    obtain ⟨best, most⟩ := (OfferEntry.bestOf_eq_iff fit _).mp q
    exact ⟨numbered, e, held, young, some, room, station, best, most, f.trans e.freeCount_eq, d, h, a, r, v, l⟩
  · rintro ⟨numbered, e, held, young, some, room, station, best, most, f, d, h, a, r, v, l⟩
    have fit := e.candidate_iff.mpr ⟨some, room⟩
    exact .inr ⟨e, (mem_rankedEntries s e).mpr ⟨numbered, held, young, fit⟩, (peerCandidate_eq_iff s e kind).mpr
      ⟨station, (OfferEntry.bestOf_eq_iff fit _).mpr ⟨best, most⟩, f.trans e.freeCount_eq.symm, d, h, a, r, v, l⟩⟩

/-- R18, R21 to R26: a LOCAL record is a candidate when a module is usable as a path and the station gives its fields. -/
theorem local_mem_candidates_iff (s : State) {c : Candidate} (kind : c.kind = .loc) :
    c ∈ candidates s ↔
      (∃ m, (s.mod m).usableAsPath = true) ∧ c.station = s.own ∧
        (∃ m, s.modCounts (s.mod m) = true ∧ c.q = (s.mod m).bestQuality) ∧
        (∀ m, s.modCounts (s.mod m) = true → (s.mod m).bestQuality ≤ c.q) ∧
        c.f = (s.mod .a).grantable.toNat + (s.mod .b).grantable.toNat ∧ c.d = s.claims.length ∧ c.h = 0 ∧ c.a = 0 ∧
        c.r = 0 ∧ c.v = (s.coc.avoid.any fun k => k.station == s.own).toNat ∧ c.l = 1 := by
  rw [mem_candidates, ← localIsCandidate_iff]
  constructor
  · rintro (⟨usable, same⟩ | ⟨e, -, rfl⟩)
    · obtain ⟨station, q, rest⟩ := (eq_localCandidate_iff s kind).mp same
      obtain ⟨best, most⟩ := (localCandidate_q_iff usable _).mp q
      exact ⟨usable, station, best, most, rest⟩
    · cases kind
  · rintro ⟨usable, station, best, most, rest⟩
    exact .inl ⟨usable, (eq_localCandidate_iff s kind).mpr
      ⟨station, (localCandidate_q_iff usable _).mpr ⟨best, most⟩, rest⟩⟩

/-- Settles O12: sorting keeps the candidates and orders them, and each of the two kinds has its inputs. -/
theorem rankingOutcomeIsBest : Obligations.RankingOutcomeIsBest := by
  unfold Obligations.RankingOutcomeIsBest
  refine ⟨Candidate.score_clamp, candidateList_perm, candidateList_sorted, fun _ => rfl, ranking_eq_none_iff,
    fun _ _ => ranking_best, fun s c => ⟨fun kind => ?_, fun kind => ?_, candidates_stations⟩⟩
  · have counts (e : OfferEntry) (x : Summary) :
        (if (e.a.any Summary.isFree || e.b.any Summary.isFree) = true then fun y : Option Summary => y.any Summary.isFree
          else fun y => y.any Summary.isBusy) (some x) = e.counts x := by
      unfold OfferEntry.counts; split <;> rfl
    have iff := peer_mem_candidates_iff s kind
    simp only [← counts] at iff
    exact iff
  · have iff := local_mem_candidates_iff s kind
    simp only [Module.bestQuality_eq] at iff
    exact iff

end Sys2Proof.Machine

/-! # The frame of an event, case by case (log 1, 9, 10) -/

namespace Sys2Proof.Machine

/-! ## What a command is, as its operation on the state in which it begins -/

/-- A local event outside a full reset is its operation. -/
theorem exec_local {c : Instr} {t : Time} {op : State → State} {s u : State}
    (arm : exec c s = .next (localEvent t op s)) (r : s.inReset = false) (run : op (startEvent t s) = u) :
    exec c s = .next u := by
  rw [arm, localEvent_eq t op s r, run]

/-- R113: the modules that became grantable between two states. -/
def freedNotices (s0 s1 : State) : List Notice :=
  (if turnsGrantable .a s0 s1 then [.grantable .a] else []) ++ (if turnsGrantable .b s0 s1 then [.grantable .b] else [])

/-- R113: the notices of freed modules are all that `noteFreed` adds. -/
theorem noteFreed_eq (s0 s1 : State) : noteFreed s0 s1 = { s1 with notices := s1.notices ++ freedNotices s0 s1 } := by
  have module (m : Mod) (s : State) :
      noteModule m s0 s = { s with notices := s.notices ++ if turnsGrantable m s0 s then [.grantable m] else [] } := by
    unfold noteModule; split <;> simp [State.notify]
  have later : turnsGrantable .b s0 (noteModule .a s0 s1) = turnsGrantable .b s0 s1 := by rw [module]; rfl
  rw [noteFreed, module .b, later, module .a, freedNotices, List.append_assoc]

/-- The notices that an event brings about where nothing waits. -/
theorem freedNotices_quiet (s0 s1 : State) : (freedNotices s0 s1).length ≤ 2 ∧ ∀ x ∈ freedNotices s0 s1, x.quiet = true := by
  unfold freedNotices
  split <;> split <;> simp [Notice.quiet]

/-- A module that has not changed has not become grantable. -/
theorem freedNotices_of_modules {s0 s1 : State} (h : s1.modules = s0.modules) : freedNotices s0 s1 = [] := by
  have not (m : Mod) : turnsGrantable m s0 s1 = false := by simp [turnsGrantable, h]
  unfold freedNotices; rw [not, not]; rfl

/-- An event whose operation leaves a calm state with quiet notices is its operation, with the builder's comparison. -/
theorem event_calm {t : Time} {op : State → State} {s u : State} (r : s.inReset = false) (run : op (startEvent t s) = u)
    (calm : u.calm) (quiet : ∀ x ∈ u.notices, x.quiet = true) (few : u.notices.length ≤ 60) :
    event t op s = offerSync (startEvent t s) { u with notices := [] } := by
  obtain ⟨two, freed⟩ := freedNotices_quiet (startEvent t s) u
  rw [event_eq t op s r, noting, run, noteFreed_eq,
    drain_calm (s := { u with notices := u.notices ++ freedNotices (startEvent t s) u }) noticeFuel calm]
  · intro x hx
    rcases List.mem_append.mp hx with old | new
    · exact quiet x old
    · exact freed x new
  · rw [List.length_append, noticeFuel]; omega

/-- An event whose operation frees no module: its notices are drained, and the builder compares. -/
theorem event_drained {t : Time} {op : State → State} {s u v : State} (r : s.inReset = false)
    (run : op (startEvent t s) = u) (modules : u.modules = s.modules) (drained : drain noticeFuel u = v) :
    event t op s = offerSync (startEvent t s) v := by
  have kept : noting op (startEvent t s) = u := by
    rw [noting, run, noteFreed_eq, freedNotices_of_modules (s0 := startEvent t s) modules, List.append_nil]
  rw [event_eq t op s r, kept, drained]

/-- An event whose operation gives no notice and frees no module is its operation, with the builder's comparison. -/
theorem event_noNotice {t : Time} {op : State → State} {s u : State} (r : s.inReset = false)
    (run : op (startEvent t s) = u) (notices : u.notices = []) (modules : u.modules = s.modules) :
    event t op s = offerSync (startEvent t s) u :=
  event_drained r run modules (drain_nil _ notices)

/-- What the operation of an event leaves when the event ends with it: no notice, no freed module, and nothing new for the
builder. -/
structure Unnoticed (s0 u : State) : Prop where
  notices : u.notices = []
  straps : u.straps = s0.straps
  supply : u.supply.state = s0.supply.state
  dup : u.band.dupFault = s0.band.dupFault
  modules : u.modules = s0.modules
  claims : u.claims.length = s0.claims.length

/-- R4, R10: nothing new for the builder. -/
theorem offerSync_unnoticed {s0 u : State} (h : Unnoticed s0 u) : offerSync s0 u = u := by
  refine offerSync_same ?_ ?_
  · unfold State.offeringFlag; rw [h.straps, h.supply, h.dup]
  · simp [offerInputsChanged, h.modules, h.claims, h.supply]

/-- An event whose operation brings about nothing further is its operation. -/
theorem event_unnoticed {t : Time} {op : State → State} {s u : State} (r : s.inReset = false)
    (run : op (startEvent t s) = u) (h : Unnoticed (startEvent t s) u) : event t op s = u := by
  rw [event_noNotice r run h.notices h.modules, offerSync_unnoticed h]

/-- A command whose operation brings about nothing further is its operation. -/
theorem exec_unnoticed {c : Instr} {t : Time} {op : State → State} {s u : State}
    (arm : exec c s = .next (event t op s)) (r : s.inReset = false) (run : op (startEvent t s) = u)
    (h : Unnoticed (startEvent t s) u) : exec c s = .next u := by
  rw [arm, event_unnoticed r run h]

/-- The flag of R1 by the fields it reads. -/
theorem offeringFlag_congr {s u : State} (straps : u.straps = s.straps) (supply : u.supply = s.supply)
    (dup : u.band.dupFault = s.band.dupFault) : u.offeringFlag = s.offeringFlag := by
  unfold State.offeringFlag; rw [straps, supply, dup]

/-- R4, R10: without a change of the offering flag, the builder's comparison moves the schedule only. -/
theorem offerSync_form {s0 s : State} (flag : s.offeringFlag = s0.offeringFlag) :
    offerSync s0 s = { s with sched := (offerSync s0 s).sched } := by
  unfold offerSync
  rw [if_neg (by simp [flag])]
  split
  · unfold compareContent; split <;> rfl
  · rfl

/-- An event whose operation leaves a calm state and the offering flag moves, besides, the schedule only. -/
theorem event_calm_form {t : Time} {op : State → State} {s u : State} (r : s.inReset = false)
    (run : op (startEvent t s) = u) (calm : u.calm) (quiet : ∀ x ∈ u.notices, x.quiet = true)
    (few : u.notices.length ≤ 60) (flag : u.offeringFlag = s.offeringFlag) :
    event t op s = { u with notices := [], sched := (event t op s).sched } := by
  have whole := event_calm r run calm quiet few
  rw [whole]
  exact offerSync_form flag

/-! ## Hand-overs -/

/-- R167: a hand-over does not read or change the schedule. -/
theorem handOver_withSched (f : Frame) (s : State) (x : OfferSchedule) :
    handOver f { s with sched := x } = { handOver f s with sched := x } := by
  unfold handOver State.own; dsimp only; split
  · rfl
  · split <;> rfl

@[simp] theorem handOver_dupFault (f : Frame) (s : State) : (handOver f s).band.dupFault = s.band.dupFault := by
  unfold handOver; split
  · rfl
  · dsimp only; split <;> simp [Band.add_dupFault]

end Sys2Proof.Machine

/-! # Own offers (01, 1.2) -/

namespace Sys2Proof.Machine

/-- R7, R8: the hand-over of an OFFER, and the schedule it leaves. -/
theorem announceOffer_eq (s : State) :
    announceOffer s =
      { handOver (offerFrame s.content) s with
        sched :=
          { s.sched with
            periodicDue := some (s.now + offerPeriod), changeDeadline := none, lastHandover := some s.now,
            reference := some s.content, deferred := none } } := by
  unfold announceOffer State.updSched; rw [handOver_sched]

/-- R10: the hand-over of a withdrawal. -/
theorem withdrawOffer_eq (s : State) :
    withdrawOffer s =
      { handOver (offerFrame s.content) s with
        sched := { s.sched with lastHandover := some s.now, withdrawalOwed := false } } := by
  unfold withdrawOffer State.updSched; rw [handOver_sched]

/-- R9: the last hand-over is less than 250 ms ago. -/
theorem not_spaced {s : State} {x : Time} (last : s.sched.lastHandover = some x) (early : s.now < x + ms 250) :
    spaced s = false := by
  rw [← Bool.not_eq_true, spaced_iff]
  intro h
  exact absurd (h x last) (Nat.not_le.mpr early)

/-- R7, R8: the schedule right after the hand-over of an OFFER with the content `c`. -/
def OfferSchedule.announced (x : OfferSchedule) (c : Content) (now : Time) : OfferSchedule :=
  { x with periodicDue := some (now + ms 2000), changeDeadline := none, lastHandover := some now, reference := some c,
           deferred := none }

/-- R9: an OFFER that is due goes out when the spacing has passed. -/
theorem offerDue_spaced (kind : DeferredOffer) {s : State}
    (apart : ∀ y, s.sched.lastHandover = some y → y + ms 250 ≤ s.now) :
    offerDue kind s = { handOver (offerFrame s.content) s with sched := s.sched.announced s.content s.now } := by
  rw [offerDue, if_pos ((spaced_iff s).mpr apart), announceOffer_eq]
  rfl

/-- R9: inside the spacing the first kind that fell due waits. -/
theorem offerDue_held (kind : DeferredOffer) {s : State} {y : Time} (last : s.sched.lastHandover = some y)
    (early : s.now < y + ms 250) (wait : s.sched.deferred = none) :
    offerDue kind s = { s with sched := { s.sched with deferred := some kind } } := by
  rw [offerDue, not_spaced last early]
  simp [State.updSched, wait]

/-- R6: the first due time. -/
theorem firstOffer_due {s : State} (phase : s.sched.phase = .starting) (due : s.due s.sched.firstDue = true) :
    firstOffer s =
      if s.offeringFlag then
        { handOver (offerFrame s.content) s with
          sched := { s.sched with phase := .active, firstDue := none }.announced s.content s.now }
      else { s with sched := { s.sched with phase := .withdrawn, firstDue := none, withdrawalOwed := false } } := by
  rw [firstOffer, if_pos ⟨phase, due⟩]
  split
  · rw [announceOffer_eq, State.updSched, handOver_withSched]; rfl
  · rfl

/-- R7: the periodic due time. -/
theorem periodicOffer_due {s : State} (phase : s.sched.phase = .active) (due : s.due s.sched.periodicDue = true) :
    periodicOffer s = offerDue .periodic s := if_pos ⟨phase, due⟩

/-- R8: at the change deadline the content does not differ. -/
theorem changeOffer_same {s : State} (phase : s.sched.phase = .active) (due : s.due s.sched.changeDeadline = true)
    (same : contentDiffers s.content s.sched.reference = false) :
    changeOffer s = { s with sched := { s.sched with changeDeadline := none } } := by
  rw [changeOffer, if_pos ⟨phase, due⟩]
  exact if_neg fun differs => Bool.false_ne_true (same.symm.trans differs)

/-- R8: at the change deadline the content differs. -/
theorem changeOffer_differs {s : State} (phase : s.sched.phase = .active) (due : s.due s.sched.changeDeadline = true)
    (differs : contentDiffers s.content s.sched.reference = true) :
    changeOffer s = offerDue .change { s with sched := { s.sched with changeDeadline := none } } := by
  rw [changeOffer, if_pos ⟨phase, due⟩]
  exact if_pos differs

/-- R9: the spacing's end for an OFFER that waits. -/
theorem spacingEnds_deferred {s : State} (apart : ∀ y, s.sched.lastHandover = some y → y + ms 250 ≤ s.now)
    (phase : s.sched.phase = .active) (waits : s.sched.deferred ≠ none) :
    spacingEnds s = { handOver (offerFrame s.content) s with sched := s.sched.announced s.content s.now } := by
  rw [spacingEnds, if_pos ((spaced_iff s).mpr apart), if_pos ⟨phase, Option.isSome_iff_ne_none.mpr waits⟩, announceOffer_eq]
  rfl

/-- R10: the spacing's end for a withdrawal owed. -/
theorem spacingEnds_owed {s : State} (apart : ∀ y, s.sched.lastHandover = some y → y + ms 250 ≤ s.now)
    (phase : s.sched.phase = .withdrawn) (owed : s.sched.withdrawalOwed = true) :
    spacingEnds s =
      { handOver (offerFrame s.content) s with
        sched := { s.sched with lastHandover := some s.now, withdrawalOwed := false } } := by
  rw [spacingEnds, if_pos ((spaced_iff s).mpr apart), if_neg (by simp [phase]), if_pos ⟨phase, owed⟩, withdrawOffer_eq]

/-- A deadline that is set and reached is due in the event. -/
theorem startEvent_due {s : State} {t d : Time} {x : Option Time} (set : x = some d) (reached : d ≤ max s.now t) :
    (startEvent t s).due x = true := by
  subst set; exact decide_eq_true reached

/-- Settles O16: each kind of hand-over by its due time and by the spacing. -/
theorem offersGoOutWhenDue : Obligations.OffersGoOutWhenDue := by
  unfold Obligations.OffersGoOutWhenDue
  refine ⟨fun t d s r phase first reached => ?_,
    fun t d s r phase periodic reached => ⟨fun apart => ?_, fun x last early wait => ?_⟩,
    fun t d s r phase change reached => ⟨fun same => ?_, fun differs apart => ?_, fun x differs last early wait => ?_⟩,
    fun t s r apart => ⟨fun phase waits => ?_, fun phase owed => ?_⟩⟩
  · have run := firstOffer_due (s := startEvent t s) phase (startEvent_due first reached)
    rw [exec_local (op := firstOffer) rfl r run]
    show Host.Outcome.next (if s.offeringFlag = true then _ else _) = _
    split <;> rfl
  · exact exec_local rfl r ((periodicOffer_due (s := startEvent t s) phase (startEvent_due periodic reached)).trans
      (offerDue_spaced .periodic apart))
  · exact exec_local rfl r ((periodicOffer_due (s := startEvent t s) phase (startEvent_due periodic reached)).trans
      (offerDue_held .periodic last early wait))
  · exact exec_local rfl r (changeOffer_same (s := startEvent t s) phase (startEvent_due change reached) same)
  · refine exec_local rfl r ((changeOffer_differs (s := startEvent t s) phase (startEvent_due change reached) differs).trans
      ((offerDue_spaced .change apart).trans ?_))
    rw [handOver_withSched]
    rfl
  · exact exec_local rfl r ((changeOffer_differs (s := startEvent t s) phase (startEvent_due change reached) differs).trans
      (offerDue_held .change last early wait))
  · exact exec_local rfl r (spacingEnds_deferred (s := startEvent t s) apart phase waits)
  · exact exec_local rfl r (spacingEnds_owed (s := startEvent t s) apart phase owed)

/-! ## The flag (R10) -/

/-- R10: the schedule as the flag turns no, before the withdrawal. -/
def OfferSchedule.turnedNo (x : OfferSchedule) : OfferSchedule :=
  { x with phase := .withdrawn, changeDeadline := none, periodicDue := none, reference := none, deferred := none,
           withdrawalOwed := true }

/-- R10: with the spacing passed, or nothing handed over before, the withdrawal goes out at once (log 51). -/
theorem flagTurnsNo_spaced {s : State} (h : spaced s = true) :
    flagTurnsNo s =
      { handOver (offerFrame s.content) s with
        sched := { s.sched.turnedNo with lastHandover := some s.now, withdrawalOwed := false } } := by
  have goes : flagTurnsNo s = withdrawOffer { s with sched := s.sched.turnedNo } := if_pos h
  rw [goes, withdrawOffer_eq, handOver_withSched]
  rfl

/-- R10: inside the spacing the withdrawal is owed. -/
theorem flagTurnsNo_owed {s : State} (h : spaced s = false) :
    flagTurnsNo s = { s with sched := s.sched.turnedNo } :=
  if_neg fun seeks => Bool.false_ne_true (h.symm.trans seeks)

/-- R10: the flag turns no in ACTIVE. -/
theorem offerSync_turnsNo {s0 s : State} (before : s0.offeringFlag = true) (now : s.offeringFlag = false)
    (phase : s.sched.phase = .active) : offerSync s0 s = flagTurnsNo s := by
  unfold offerSync; simp [before, now, phase]

/-- R10: the flag turns yes in WITHDRAWN. -/
theorem offerSync_turnsYes {s0 s : State} (before : s0.offeringFlag = false) (now : s.offeringFlag = true)
    (phase : s.sched.phase = .withdrawn) : offerSync s0 s = flagTurnsYes s := by
  unfold offerSync; simp [before, now, phase]

/-- Settles O19: by whether the spacing has passed. -/
theorem flagChangeActsOnTheSchedule : Obligations.FlagChangeActsOnTheSchedule := by
  unfold Obligations.FlagChangeActsOnTheSchedule
  intro s0 s
  refine ⟨fun before now phase => ?_, fun before now phase => by rw [offerSync_turnsYes before now phase]; rfl⟩
  rw [offerSync_turnsNo before now phase]
  cases gap : spaced s with
  | true =>
    rw [flagTurnsNo_spaced gap]
    refine ⟨rfl, rfl, rfl, rfl, fun _ => ⟨rfl, rfl, rfl⟩, fun x last early => ?_⟩
    rw [not_spaced last early] at gap; cases gap
  | false =>
    rw [flagTurnsNo_owed gap]
    refine ⟨rfl, rfl, rfl, rfl, fun apart => ?_, fun _ _ _ => ⟨rfl, rfl⟩⟩
    rw [(spaced_iff s).mpr apart] at gap; cases gap

end Sys2Proof.Machine

/-! # The Offer Table and the avoid list (01, 1.4; 03, 3.1) -/

namespace Sys2Proof.Machine

/-- The notice of a new entry brings about nothing while the origin record waits for no candidate (R36). -/
theorem drain_newEntry {s : State} (n : Nat) (h : s.waitsForCandidate = false) (notices : s.notices = [.newEntry]) :
    drain (n + 1) s = { s with notices := [] } := by
  have woken : noting wakeOrigin { s with notices := [] } = { s with notices := [] } := noting_id (wakeOrigin_calm h)
  rw [drain, notices]
  show drain n (noting wakeOrigin { s with notices := [] }) = _
  rw [woken, drain_nil n rfl]

theorem mem_insertEntry (e x : OfferEntry) (t : List OfferEntry) : x ∈ insertEntry e t ↔ x = e ∨ x ∈ t := by
  rw [(insertEntry_perm e t).mem_iff, List.mem_cons]

theorem mem_dropEntry (st : Station) (x : OfferEntry) (t : List OfferEntry) :
    x ∈ dropEntry st t ↔ x.station ≠ st ∧ x ∈ t := by
  rw [dropEntry, List.mem_filter, bne_iff_ne, and_comm]

/-- R12: the table after an OFFER of a peer. -/
def storedTable (e : OfferEntry) (t : List OfferEntry) : List OfferEntry :=
  insertEntry e (if hasEntry e.station t then dropEntry e.station t else makeRoom t)

/-- R12: an entry stored gives a notice when it is new. -/
theorem storeOffer_eq (e : OfferEntry) (s : State) :
    storeOffer e s =
      { s with
        offerTable := storedTable e s.offerTable,
        notices := if hasEntry e.station s.offerTable then s.notices else s.notices ++ [.newEntry] } := by
  unfold storeOffer storedTable
  split <;> rfl

/-- R12: with room in the table, storing an entry leaves those of the other stations. -/
theorem mem_storedTable {e : OfferEntry} {t : List OfferEntry} (room : t.length < 30 ∨ ∃ x ∈ t, x.station = e.station)
    (x : OfferEntry) : x ∈ storedTable e t ↔ x = e ∨ (x.station ≠ e.station ∧ x ∈ t) := by
  rw [storedTable, mem_insertEntry]
  split
  next held => rw [mem_dropEntry]
  next new =>
    have absent : ∀ y ∈ t, y.station ≠ e.station := fun y hy same => new ((hasEntry_iff _ _).mpr ⟨y, hy, same⟩)
    have short : t.length < 30 := room.resolve_right fun ⟨y, hy, same⟩ => absent y hy same
    rw [makeRoom, if_pos short]
    exact or_congr_right ⟨fun hx => ⟨absent x hx, hx⟩, fun h => h.2⟩

/-- R11, R12: an OFFER of a peer that gives an entry stores it. -/
theorem receiveOffer_entry {f : Rx} {s : State} {supply : Supply} {depth : Nat} {a b : Option Summary} (sender : f.sender ≠ 0)
    (reads : readOffer f.payload = .entry supply depth a b) :
    receiveOffer f s =
      storeOffer { station := f.sender.toNat, receivedAt := s.now, supply := supply, depth := depth, a := a, b := b } s := by
  unfold receiveOffer; rw [if_neg sender, reads]

/-- R13: a withdrawal of a peer drops its entry. -/
theorem receiveOffer_withdrawal {f : Rx} {s : State} (sender : f.sender ≠ 0) (reads : readOffer f.payload = .withdrawal) :
    receiveOffer f s = { s with offerTable := dropEntry f.sender.toNat s.offerTable } := by
  unfold receiveOffer; rw [if_neg sender, reads]

/-- R12, R36: an entry stored while the origin record waits for no candidate brings about nothing further. -/
theorem drain_storeOffer (e : OfferEntry) {s : State} (waits : s.waitsForCandidate = false) (notices : s.notices = []) :
    drain noticeFuel (storeOffer e s) = { s with offerTable := storedTable e s.offerTable } := by
  rw [storeOffer_eq, notices]
  split
  next => exact (drain_nil _ rfl).trans (by rw [← notices])
  next =>
    exact (drain_newEntry (s := { s with offerTable := storedTable e s.offerTable, notices := [.newEntry] }) 63 waits
      rfl).trans (by rw [← notices])

/-- Settles O17: the entry is stored, and the notice of a new one wakes nobody. -/
theorem offerStoresItsEntry : Obligations.OfferStoresItsEntry := by
  unfold Obligations.OfferStoresItsEntry
  intro t f s supply depth a b r hears reads waits room
  obtain ⟨target, sender, peer, foreign, receives⟩ := hears
  have run := (receive_hearsOffer (s := startEvent t s) (f := f) ⟨target, sender, peer, foreign, receives⟩).trans
    (receiveOffer_entry sender reads)
  have modules (e : OfferEntry) : (storeOffer e (hunt (startEvent t s))).modules = s.modules := by rw [storeOffer_eq]; rfl
  have drained (e : OfferEntry) := drain_storeOffer e (s := hunt (startEvent t s)) waits rfl
  refine ⟨_, congrArg Host.Outcome.next ((event_drained r run (modules _) (drained _)).trans
    (offerSync_unnoticed ⟨rfl, rfl, rfl, rfl, rfl, rfl⟩)), rfl, mem_storedTable room⟩

/-- What stays when a station's entry leaves at its time: the others, and one whose time is still to come. -/
theorem leave_predicate (same : Bool) (x now : Nat) : (!(same && decide (x ≤ now))) = (!same || decide (now < x)) := by
  rw [Bool.not_and, ← decide_not]
  simp only [Nat.not_le]

/-- R14 -/
theorem expireEntry_eq (st : Station) (s : State) :
    expireEntry st s =
      { s with
        offerTable := s.offerTable.filter fun e => e.station != st || decide (s.now < e.receivedAt + ms 10000) } :=
  congrArg (fun keep => { s with offerTable := s.offerTable.filter keep }) (funext fun _ => leave_predicate _ _ _)

/-- R32 -/
theorem leaveAvoid_eq (st : Station) (s : State) :
    leaveAvoid st s =
      { s with
        coc :=
          { s.coc with
            avoid := s.coc.avoid.filter fun e => e.station != st || decide (s.now < e.enteredAt + ms 30000) } } :=
  congrArg (fun keep => { s with coc := { s.coc with avoid := s.coc.avoid.filter keep } })
    (funext fun _ => leave_predicate _ _ _)

/-- Settles O18: a withdrawal, an age and a stay on the avoid list, each a filter of its list. -/
theorem entriesLeaveInTime : Obligations.EntriesLeaveInTime := by
  unfold Obligations.EntriesLeaveInTime
  refine ⟨fun t s r => ⟨fun f hears reads => ?_, fun st => ?_⟩, fun t st s r => ?_⟩
  · obtain ⟨target, sender, peer, foreign, receives⟩ := hears
    have run := receive_hearsOffer (s := startEvent t s) (f := f) ⟨target, sender, peer, foreign, receives⟩
    rw [receiveOffer_withdrawal sender reads] at run
    exact exec_unnoticed rfl r run ⟨rfl, rfl, rfl, rfl, rfl, rfl⟩
  · exact exec_local rfl r (expireEntry_eq st _)
  · exact exec_local rfl r (leaveAvoid_eq st _)

end Sys2Proof.Machine

/-! # What the switch, the lamp and the search change (03, 08, 09) -/

namespace Sys2Proof.Machine

/-! ## Prompts -/

theorem Switch.setSlot_players (c : Switch) (d : Dest) (x : Slot) : (c.setSlot d x).players = c.players := by cases d <;> rfl

theorem Switch.setSlot_ident (c : Switch) (d : Dest) (x : Slot) : (c.setSlot d x).ident = c.ident := by cases d <;> rfl

theorem Switch.slot_setSlot_self (c : Switch) (d : Dest) (x : Slot) : (c.setSlot d x).slot d = x := by
  cases d <;> simp [Switch.setSlot, Switch.slot]

theorem Switch.slot_setSlot_ne (c : Switch) {d e : Dest} (x : Slot) (h : e ≠ d) : (c.setSlot d x).slot e = c.slot e := by
  cases d with
  | speaker =>
    cases e with
    | speaker => exact absurd rfl h
    | modTx n => rfl
    | lane l => rfl
  | modTx m =>
    cases e with
    | speaker => rfl
    | modTx n => exact PerMod.get_set_ne _ _ _ _ fun same => h (congrArg _ same)
    | lane l => rfl
  | lane l =>
    cases e with
    | speaker => rfl
    | modTx n => rfl
    | lane k => exact PerLane.get_set_ne _ _ _ _ fun same => h (congrArg _ same)

/-- R147: an end signal is an output. -/
theorem signalOwner_form (o : Option Owner) (d : Dest) (p : Option Prompt) (w : SignalReason) (s : State) :
    signalOwner o d p w s = { s with out := (signalOwner o d p w s).out } := by
  cases o <;> cases p <;> rfl

/-- R146: a prompt starts at its player. -/
theorem startPrompt_player (p : PlayerId) (o : Owner) (q : Prompt) (r : BitVec 4) (g : Time) (s : State) :
    (startPrompt p o q r g s).csw.players.get p =
      { state := .playing, owner := some o, prompt := some q, repeats := r, gap := g, playsDone := 0, since := s.now } := by
  simp [startPrompt, Switch.setSlot_players]

/-- R146: asking for a prompt changes the switch and gives signals; it plays, unless the identity burst is on the destination. -/
theorem requestPrompt_spec (p : PlayerId) (o : Owner) (q : Prompt) (r : BitVec 4) (g : Time) (s : State) :
    ∃ w x, requestPrompt p o q r g s = { s with csw := w, out := x } ∧
      ((s.csw.slot (playerDest p)).overlay ≠ some .ident → w.players.get p =
        { state := .playing, owner := some o, prompt := some q, repeats := r, gap := g, playsDone := 0,
          since := s.now }) := by
  unfold requestPrompt
  split
  next burst => exact ⟨_, _, rfl, fun free => absurd burst free⟩
  next =>
    dsimp only
    rw [signalOwner_form]
    exact ⟨_, _, rfl, fun _ => startPrompt_player p o q r g _⟩
  next => exact ⟨_, _, rfl, fun _ => startPrompt_player p o q r g s⟩

/-- R55: the record's prompt on SPEAKER. -/
theorem askPrompt_spec (q : Prompt) (s : State) :
    ∃ w x, askPrompt q s = { s with csw := w, out := x } ∧
      (s.csw.speaker.overlay ≠ some .ident → w.players.s =
        { state := .playing, owner := some .origin, prompt := some q, repeats := 1, gap := 0, playsDone := 0,
          since := s.now }) :=
  requestPrompt_spec .s .origin q 1 0 s

/-! ## The lamp -/

/-- R155, R156: the lamp once the origin record has asked for a pattern. -/
def State.lampFor (s : State) (p : LampPattern) : Lamp :=
  ({ s.lamp with requested := p } : Lamp).want (wantedPattern s p) s.now

theorem Lamp.want_requested (x : Lamp) (w : LampPattern) (now : Time) : (x.want w now).requested = x.requested := by
  unfold Lamp.want; dsimp only; split
  · rfl
  · split <;> rfl

theorem Lamp.want_wanted (x : Lamp) (w : LampPattern) (now : Time) : (x.want w now).wanted = w := by
  unfold Lamp.want; dsimp only; split
  · rfl
  · split <;> rfl

@[simp] theorem State.lampFor_requested (s : State) (p : LampPattern) : (s.lampFor p).requested = p := Lamp.want_requested _ _ _

/-- R155: only DARK is replaced. -/
theorem State.lampFor_wanted (s : State) {p : LampPattern} (lit : p ≠ .dark) : (s.lampFor p).wanted = p := by
  rw [State.lampFor, Lamp.want_wanted, wantedPattern, if_neg (fun h => lit h.1)]

theorem requestLamp_eq (p : LampPattern) (s : State) : requestLamp p s = { s with lamp := s.lampFor p } := rfl

/-- R55: the record enters a state. -/
theorem enterOrigin_eq (st : OriginState) (s : State) :
    enterOrigin st s = { s with coc := { s.coc with state := st }, lamp := s.lampFor (originPattern st) } := rfl

/-! ## The search -/

/-- R53, R55: the record as it enters SEEKING. -/
def Origin.seeking (c : Origin) (now : Time) : Origin :=
  { c.pathless with
    state := .seeking, retryTime := none
    searchDeadline := match c.searchDeadline with
      | some d => some d
      | none => some (now + searchTime) }

theorem enterSeekingState_eq (s : State) :
    enterSeekingState s = { s with coc := s.coc.seeking s.now, lamp := s.lampFor .seek } := rfl

/-- R17, R20: without a LOCAL path and without entries there is no outcome. -/
theorem ranking_noCandidate {s : State} (h : s.noCandidate) : ranking s = none := by
  rw [ranking_eq_none_iff]
  have none : rankedEntries s = [] := by rw [rankedEntries, h.2]; simp
  unfold candidates
  rw [if_neg (by rw [h.1]; decide), none]; rfl

/-- R36: SEEKING without a candidate waits. -/
theorem enterSeeking_noCandidate {s : State} (h : s.noCandidate) :
    enterSeeking s =
      { s with
        coc := { s.coc.seeking s.now with retryTime := some (s.now + retryWait) }, lamp := s.lampFor .seek } := by
  have none := ranking_noCandidate (s := enterSeekingState s) h
  unfold enterSeeking
  dsimp only
  rw [none]
  rfl

/-- R34: the record as a new call begins: the next tag, no path, no count. -/
def Origin.fresh (c : Origin) : Origin :=
  { c.pathless with
    searchDeadline := none, retryTime := none, wokenAt := none, failedUntil := none, answered := false, recoveries := 0,
    dropouts := 0, attempts := 0, tagCounter := c.tagCounter + 1, tag := c.tagCounter + 1 }

/-- R34, R36: a new call without a candidate. -/
theorem newCall_noCandidate {s : State} (h : s.noCandidate) :
    ∃ w x, newCall s =
      { s with
        coc := { s.coc.fresh.seeking s.now with retryTime := some (s.now + retryWait) }, lamp := s.lampFor .seek,
        csw := w, out := x, counters := { s.counters with callsOriginated := satInc s.counters.callsOriginated } } ∧
      (s.csw.speaker.overlay ≠ some .ident → w.players.s =
        { state := .playing, owner := some .origin, prompt := some .connecting, repeats := 1, gap := 0, playsDone := 0,
          since := s.now }) := by
  obtain ⟨w, x, asked, plays⟩ := askPrompt_spec .connecting
    { s with
      coc := s.coc.fresh, counters := { s.counters with callsOriginated := satInc s.counters.callsOriginated } }
  exact ⟨w, x, (congrArg enterSeeking asked).trans (enterSeeking_noCandidate h), plays⟩

end Sys2Proof.Machine

/-! # The button, the lamp and the supply (09) -/

namespace Sys2Proof.Machine

/-! ## The button (9.1) -/

/-- R153: a sample before its time is not taken (log 44). -/
theorem sampleButton_early (p : Bool) {s : State} (early : s.now < s.button.sampledAt + ms 10) : sampleButton p s = s := by
  have not : s.button.sampleDue s.now = false := decide_eq_false (Nat.not_le.mpr early)
  rw [sampleButton, if_neg (by rw [not]; decide)]

/-- R153: a sample that is no press changes the filter only. -/
theorem sampleButton_quiet {p : Bool} {s : State} {b : ButtonFilter} (due : s.button.sampledAt + ms 10 ≤ s.now)
    (filter : s.button.sample p s.now = b) (quiet : (s.button.pressed || !b.pressed) = true) :
    sampleButton p s = { s with button := b } := by
  have no : s.button.pressedBy p s.now = false := by
    rw [ButtonFilter.pressedBy, filter]
    cases hp : s.button.pressed
    · simpa [hp] using quiet
    · rfl
  have dueNow : s.button.sampleDue s.now = true := decide_eq_true due
  rw [sampleButton, if_pos dueNow]
  dsimp only
  rw [no, filter]
  rfl

/-- R153, R154: the third pressed sample is a press. -/
theorem sampleButton_press {s : State} (due : s.button.sampledAt + ms 10 ≤ s.now) (released : s.button.pressed = false)
    (third : s.button.disagree = 2) :
    sampleButton true s = pressTaken { s with button := { pressed := true, disagree := 0, sampledAt := s.now } } := by
  have filter : s.button.sample true s.now = { pressed := true, disagree := 0, sampledAt := s.now } := by
    simp [ButtonFilter.sample, released, third]
  have press : s.button.pressedBy true s.now = true := by rw [ButtonFilter.pressedBy, filter, released]; rfl
  have dueNow : s.button.sampleDue s.now = true := decide_eq_true due
  rw [sampleButton, if_pos dueNow]
  dsimp only
  rw [press, filter]
  rfl

/-- R183: without a test in progress there is none to end. -/
theorem endTest_none (r : TestResult) {s : State} (h : s.svc.test = none) : endTest r s = s := by
  unfold endTest; rw [h]

/-- R34: a press in IDLE or FAILED. -/
theorem originPress_call {s : State} (h : s.coc.state = .idle ∨ s.coc.state = .failed) : originPress s = newCall s :=
  if_pos h

/-- R34: a press in any other state. -/
theorem originPress_ignored {s : State} (idle : s.coc.state ≠ .idle) (failed : s.coc.state ≠ .failed) :
    originPress s = { s with coc := { s.coc with pressesIgnored := satInc s.coc.pressesIgnored } } :=
  if_neg (not_or.mpr ⟨idle, failed⟩)

/-- Settles O20: the filter sample by sample, and the press by the record's state. -/
theorem buttonIsFilteredAndTaken : Obligations.ButtonIsFilteredAndTaken := by
  unfold Obligations.ButtonIsFilteredAndTaken
  refine ⟨fun t p s r => ⟨fun early => ?_, fun due => ⟨fun same => ?_, fun differs few => ?_, fun pressed third => ?_⟩⟩,
    fun t s r due released third state none noTest => ?_, fun t s r due released third idle failed noTest => ?_⟩
  · have nothing (q : Bool) : event t (sampleButton q) s = startEvent t s :=
      event_unnoticed r (sampleButton_early q early) ⟨rfl, rfl, rfl, rfl, rfl, rfl⟩
    exact ⟨congrArg _ (nothing p), congrArg _ (nothing true), congrArg _ (nothing false)⟩
  · refine exec_unnoticed rfl r (sampleButton_quiet (s := startEvent t s) due (if_pos same) ?_) ⟨rfl, rfl, rfl, rfl, rfl, rfl⟩
    show (s.button.pressed || !s.button.pressed) = true
    simp
  · have filter : s.button.sample p (max s.now t) =
        { s.button with disagree := s.button.disagree + 1, sampledAt := max s.now t } := by
      rw [ButtonFilter.sample, if_neg differs, if_pos (by omega)]
    refine exec_unnoticed rfl r (sampleButton_quiet (s := startEvent t s) due filter ?_) ⟨rfl, rfl, rfl, rfl, rfl, rfl⟩
    show (s.button.pressed || !s.button.pressed) = true
    simp
  · have filter : s.button.sample false (max s.now t) = { pressed := false, disagree := 0, sampledAt := max s.now t } := by
      simp [ButtonFilter.sample, pressed, third]
    exact exec_unnoticed rfl r (sampleButton_quiet (s := startEvent t s) due filter (by simp))
      ⟨rfl, rfl, rfl, rfl, rfl, rfl⟩
  · have call := originPress_call
      (s := { startEvent t s with button := { pressed := true, disagree := 0, sampledAt := max s.now t } }) state
    obtain ⟨w, x, fresh, plays⟩ := newCall_noCandidate
      (s := { startEvent t s with button := { pressed := true, disagree := 0, sampledAt := max s.now t } }) none
    have run := (sampleButton_press (s := startEvent t s) due released third).trans
      ((congrArg (endTest .aborted) (call.trans fresh)).trans (endTest_none _ noTest))
    refine ⟨_, exec_unnoticed rfl r run ⟨rfl, rfl, rfl, rfl, rfl, rfl⟩, rfl, rfl, rfl, rfl, rfl, rfl, rfl, rfl, rfl, rfl, rfl,
      rfl, rfl, State.lampFor_requested _ _, State.lampFor_wanted _ (by decide), fun free => ?_⟩
    rw [plays free]
    exact ⟨rfl, rfl⟩
  · have ignored := originPress_ignored
      (s := { startEvent t s with button := { pressed := true, disagree := 0, sampledAt := max s.now t } }) idle failed
    have run := (sampleButton_press (s := startEvent t s) due released third).trans
      ((congrArg (endTest .aborted) ignored).trans (endTest_none _ noTest))
    exact exec_unnoticed rfl r run ⟨rfl, rfl, rfl, rfl, rfl, rfl⟩

/-! ## The lamp (9.2) -/

/-- R156: the on-time ends. -/
theorem lampTurnsOff_due {s : State} {period onTime : Time} (times : lampTimes s.lamp.running = some (period, onTime))
    (on : s.lamp.on = true) (due : s.lamp.since + onTime ≤ s.now) :
    lampTurnsOff s = { s with lamp := { s.lamp with on := false } } := by
  unfold lampTurnsOff; rw [times]; exact if_pos ⟨on, due⟩

/-- R156, R157: a period that ends is counted, its tick is given, and the pattern goes on or changes. -/
theorem periodEnds_over {s : State} {period onTime : Time} (times : lampTimes s.lamp.running = some (period, onTime))
    (due : s.lamp.since + period ≤ s.now) (u : State)
    (tick : (if tickDue s then originTick { s with lamp := s.lamp.countPeriod } else { s with lamp := s.lamp.countPeriod }) = u) :
    periodEnds s = { u with lamp := u.lamp.nextPeriod u.now } := by
  have over' : periodOver s = true := by unfold periodOver; rw [times]; exact decide_eq_true due
  rw [periodEnds, if_pos over']
  dsimp only
  rw [tick]

/-- R157: only the eighth period of SEEK gives a tick. -/
theorem tickDue_false {s : State} (few : s.lamp.running = .seek → s.lamp.periodCount < 7) : tickDue s = false := by
  unfold tickDue
  by_cases seek : s.lamp.running = .seek
  · simp [few seek]
  · simp [seek]

/-- R157: a period of SEEK before the eighth is counted; those of the other patterns are not. -/
theorem Lamp.countPeriod_few {x : Lamp} (few : x.running = .seek → x.periodCount < 7) :
    x.countPeriod = { x with periodCount := if x.running = .seek then x.periodCount + 1 else x.periodCount } := by
  unfold Lamp.countPeriod
  split
  next seek => rw [if_neg (by have := few seek; omega)]
  next => rfl

/-- R156: without a pending pattern the next period begins. -/
theorem Lamp.nextPeriod_same {x : Lamp} (now : Time) (none : x.pending = none) :
    x.nextPeriod now = { x with since := now, on := true } := by
  unfold Lamp.nextPeriod; rw [none]

/-- R156: a pending pattern starts, its periods counted anew. -/
theorem Lamp.nextPeriod_change {x : Lamp} {p : LampPattern} (now : Time) (pending : x.pending = some p) (new : p ≠ x.running) :
    x.nextPeriod now = { x with running := p, pending := none, since := now, on := true, periodCount := 0 } := by
  unfold Lamp.nextPeriod; rw [pending]
  exact congrArg (fun n => { x with running := p, pending := none, since := now, on := true, periodCount := n })
    (if_neg (Ne.symm new))

/-- R55: the record plays PLEASE-WAIT at a tick when it searches and SPEAKER is silent. -/
theorem originTick_plays {s : State} (searching : s.coc.state.searching = true) (silent : s.csw.players.s.state = .idle)
    (free : s.csw.speaker.overlay = none) : originTick s = startPrompt .s .origin .pleaseWait 1 0 s := by
  have wants : (s.coc.wantsPleaseWait && !s.speakerPlays) = true := by
    simp [Origin.wantsPleaseWait, State.speakerPlays, searching, silent]
  have slot : (s.csw.slot (playerDest .s)).overlay = none := free
  rw [originTick, if_pos wants, askPrompt, requestPrompt, slot]

/-- R55: a tick while a prompt plays brings about nothing. -/
theorem originTick_busy {s : State} (busy : s.csw.players.s.state ≠ .idle) : originTick s = s := by
  rw [originTick, if_neg (by simp [State.speakerPlays, busy])]

/-- Settles O21: the on-time, the period that ends, and the tick of the eighth one. -/
theorem lampRunsItsPattern : Obligations.LampRunsItsPattern := by
  unfold Obligations.LampRunsItsPattern
  refine ⟨fun t period onTime s r times => ⟨fun on due => ?_, fun due few => ?_⟩, fun t s r seek seventh none due => ?_⟩
  · exact exec_local rfl r (lampTurnsOff_due (s := startEvent t s) times on due)
  · have counted : (if tickDue (startEvent t s) then originTick { startEvent t s with lamp := s.lamp.countPeriod }
        else { startEvent t s with lamp := s.lamp.countPeriod }) =
        { startEvent t s with
          lamp :=
            { s.lamp with
              periodCount := if s.lamp.running = .seek then s.lamp.periodCount + 1 else s.lamp.periodCount } } := by
      rw [tickDue_false (s := startEvent t s) few, Lamp.countPeriod_few few]; rfl
    have run := periodEnds_over (s := startEvent t s) times due _ counted
    refine ⟨fun none => exec_local rfl r (run.trans ?_), fun p pending new => exec_local rfl r (run.trans ?_)⟩
    · rw [Lamp.nextPeriod_same _ (by exact none)]; rfl
    · rw [Lamp.nextPeriod_change _ (p := p) (by exact pending) (by exact new)]; rfl
  · have times : lampTimes s.lamp.running = some (ms 1000, ms 500) := by rw [seek]; rfl
    have tick : tickDue (startEvent t s) = true := by simp [tickDue, seek, seventh]
    have count : s.lamp.countPeriod = { s.lamp with periodCount := 0 } := by simp [Lamp.countPeriod, seek, seventh]
    have next : ({ s.lamp with periodCount := 0 } : Lamp).nextPeriod (max s.now t) =
        { s.lamp with periodCount := 0, since := max s.now t, on := true } := Lamp.nextPeriod_same _ none
    refine ⟨fun searching silent free => ?_, fun busy => ?_⟩
    · have counted : (if tickDue (startEvent t s) then originTick { startEvent t s with lamp := s.lamp.countPeriod }
          else { startEvent t s with lamp := s.lamp.countPeriod }) =
          startPrompt .s .origin .pleaseWait 1 0 { startEvent t s with lamp := { s.lamp with periodCount := 0 } } := by
        rw [if_pos tick, count]
        exact originTick_plays searching silent free
      refine exec_local rfl r ((periodEnds_over (s := startEvent t s) times due _ counted).trans ?_)
      exact congrArg (fun x => { startPrompt .s .origin .pleaseWait 1 0 (startEvent t s) with lamp := x }) next
    · have counted : (if tickDue (startEvent t s) then originTick { startEvent t s with lamp := s.lamp.countPeriod }
          else { startEvent t s with lamp := s.lamp.countPeriod }) =
          { startEvent t s with lamp := { s.lamp with periodCount := 0 } } := by
        rw [if_pos tick, count]
        exact originTick_busy busy
      refine exec_local rfl r ((periodEnds_over (s := startEvent t s) times due _ counted).trans ?_)
      exact congrArg (fun x => { startEvent t s with lamp := x }) next

/-! ## The supply (9.3) -/

/-- R159: the thresholds of the set: those of set 1 are twice those of set 0. -/
theorem thresholds_eq (set1 : Bool) :
    thresholds set1 =
      { toReserve := 11800 * (if set1 then 2 else 1), toLow := 11000 * (if set1 then 2 else 1),
        fromLow := 11400 * (if set1 then 2 else 1), toNormal := 12200 * (if set1 then 2 else 1) } := by
  cases set1 <;> rfl

/-- The class of a sample between two thresholds. -/
theorem twoThresholds {lower upper mv : Nat} (order : lower ≤ upper) :
    ((if mv < lower then Supply.low else if mv < upper then .reserve else .normal) = .low ↔ mv < lower) ∧
    ((if mv < lower then Supply.low else if mv < upper then .reserve else .normal) = .reserve ↔ lower ≤ mv ∧ mv < upper) ∧
    ((if mv < lower then Supply.low else if mv < upper then .reserve else .normal) = .normal ↔ upper ≤ mv) := by
  split
  next low => simp; omega
  next high =>
    split
    next middle => simp; omega
    next top => simp; omega

/-- R159, R161: a sample before its time is not taken (log 44). -/
theorem supplyTaken_early (mv : Nat) {s : State} (early : s.now < s.supply.sampledAt + ms 100) : supplyTaken mv s = s := by
  have not : s.supply.sampleDue s.now = false := decide_eq_false (Nat.not_le.mpr early)
  rw [supplyTaken, if_neg (by rw [not]; decide)]

/-- R159: a sample that does not take the supply out of LOW changes the filter only. -/
theorem supplyTaken_due {mv : Nat} {s : State} {x : SupplyMonitor} (due : s.supply.sampledAt + ms 100 ≤ s.now)
    (filter : s.supply.filter (classify s.straps.supplySet s.supply.state mv) s.now = x)
    (stays : s.supply.state = .low → x.state = .low) : supplyTaken mv s = { s with supply := x } := by
  have sampled : sampleSupply mv s = { s with supply := x } := by rw [sampleSupply, filter]
  have not : ¬ ((s.supply.state == .low && x.state != .low) = true) := by
    simpa using stays
  have dueNow : s.supply.sampleDue s.now = true := decide_eq_true due
  rw [supplyTaken, if_pos dueNow]
  dsimp only
  rw [sampled]
  exact if_neg not

/-- Settles O22: the thresholds, and the filter by class, candidate and count. -/
theorem supplyNeedsThreeSamples : Obligations.SupplyNeedsThreeSamples := by
  unfold Obligations.SupplyNeedsThreeSamples
  refine ⟨fun set1 mv => ?_, fun t mv s r => ⟨fun early => ?_, fun due => ?_⟩⟩
  · dsimp only [classify]
    rw [thresholds_eq]
    obtain ⟨a1, a2, a3⟩ := twoThresholds (mv := mv) (show 11000 * (if set1 then 2 else 1) ≤ 11800 * (if set1 then 2 else 1) by omega)
    obtain ⟨b1, b2, b3⟩ := twoThresholds (mv := mv) (show 11000 * (if set1 then 2 else 1) ≤ 12200 * (if set1 then 2 else 1) by omega)
    obtain ⟨c1, c2, c3⟩ := twoThresholds (mv := mv) (show 11400 * (if set1 then 2 else 1) ≤ 12200 * (if set1 then 2 else 1) by omega)
    exact ⟨a1, a2, a3, b1, b2, b3, c1, c2, c3⟩
  · have nothing : event t (supplyTaken mv) s = startEvent t s :=
      event_unnoticed r (supplyTaken_early mv early) ⟨rfl, rfl, rfl, rfl, rfl, rfl⟩
    exact ⟨congrArg _ nothing, congrArg _ nothing⟩
  · refine ⟨fun same => ?_, fun differs new => ?_, fun differs again first => ?_, fun differs again second high => ?_⟩
    · exact exec_unnoticed rfl r (supplyTaken_due (s := startEvent t s) due (if_pos same) id) ⟨rfl, rfl, rfl, rfl, rfl, rfl⟩
    · have filter : s.supply.filter (classify s.straps.supplySet s.supply.state mv) (max s.now t) =
          { s.supply with
            candidate := some (classify s.straps.supplySet s.supply.state mv), agree := 1, sampledAt := max s.now t } := by
        rw [SupplyMonitor.filter, if_neg differs, if_neg new]
      exact exec_unnoticed rfl r (supplyTaken_due (s := startEvent t s) due filter id) ⟨rfl, rfl, rfl, rfl, rfl, rfl⟩
    · have filter : s.supply.filter (classify s.straps.supplySet s.supply.state mv) (max s.now t) =
          { s.supply with agree := 2, sampledAt := max s.now t } := by
        rw [SupplyMonitor.filter, if_neg differs, if_pos again, first]; rfl
      exact exec_unnoticed rfl r (supplyTaken_due (s := startEvent t s) due filter id) ⟨rfl, rfl, rfl, rfl, rfl, rfl⟩
    · have filter : s.supply.filter (classify s.straps.supplySet s.supply.state mv) (max s.now t) =
          { state := classify s.straps.supplySet s.supply.state mv, candidate := none, agree := 0,
            sampledAt := max s.now t } := by
        rw [SupplyMonitor.filter, if_neg differs, if_pos again, second]; rfl
      have run := supplyTaken_due (s := startEvent t s) due filter fun low => absurd low high
      exact congrArg Host.Outcome.next (event_noNotice r run rfl rfl)

end Sys2Proof.Machine

/-! # Control Band Interface (10) -/

namespace Sys2Proof.Machine

/-! ## The transmit queue (10.3) -/

/-- R165: the frame in hand over these queues: the one already there, or the first in queue order, WAITING. -/
def nextHand (hand : Option Hand) (calls : List Frame) (offer : Option Frame) (services : List Frame) : Option Hand :=
  match hand with
  | some g => some g
  | none =>
    if calls ≠ [] then some { cls := .call, line := none, collisions := 0, replaced := false }
    else if offer ≠ none then some { cls := .offer, line := none, collisions := 0, replaced := false }
    else if services ≠ [] then some { cls := .service, line := none, collisions := 0, replaced := false } else none

/-- R165: all that changes is the frame in hand. -/
theorem Band.takeHand_eq (b : Band) : b.takeHand = { b with hand := nextHand b.hand b.calls b.offer b.services } := by
  obtain ⟨calls, offer, services, hand, _⟩ := b
  cases hand with
  | some g => rfl
  | none =>
    cases calls with
    | cons => rfl
    | nil =>
      cases offer with
      | some => rfl
      | none => cases services <;> rfl

/-- R165: with no frame in hand, the next one waits without a collision. -/
theorem nextHand_waits {calls services : List Frame} {offer : Option Frame} {g : Hand}
    (next : nextHand none calls offer services = some g) : g.line = none ∧ g.collisions = 0 := by
  simp only [nextHand] at next
  repeat' split at next
  all_goals cases next
  all_goals exact ⟨rfl, rfl⟩

/-- R167: a hand-over that loses no frame. -/
theorem handOver_joins {f : Frame} {s : State} {b : Band} (own : s.own ≠ 0) (add : s.band.add f = (b, false)) :
    handOver f s = { s with band := { b with hand := nextHand b.hand b.calls b.offer b.services } } := by
  rw [handOver_eq, if_neg own, add, ← Band.takeHand_eq]; rfl

/-- R167: a hand-over by which a frame is lost. -/
theorem handOver_loses {f : Frame} {s : State} {b : Band} (own : s.own ≠ 0) (add : s.band.add f = (b, true)) :
    handOver f s =
      { s with
        band := { b with hand := nextHand b.hand b.calls b.offer b.services },
        counters := { s.counters with framesDropped := satInc s.counters.framesDropped } } := by
  rw [handOver_eq, if_neg own, add, ← Band.takeHand_eq]; rfl

/-- R167: without a WAIT there is none to lose. -/
theorem withoutWait_none {l : List Frame} (h : ∀ x ∈ l, x.kind ≠ .wait) : withoutWait l = none := by
  induction l with
  | nil => rfl
  | cons f rest ih => simp [withoutWait, h f, ih fun x hx => h x (List.mem_cons_of_mem f hx)]

/-- R167: the oldest WAIT goes. -/
theorem withoutWait_oldest {before after : List Frame} {w : Frame} (h : ∀ x ∈ before, x.kind ≠ .wait) (wait : w.kind = .wait) :
    withoutWait (before ++ w :: after) = some (before ++ after) := by
  induction before with
  | nil => simp [withoutWait, wait]
  | cons f rest ih => simp [withoutWait, h f, ih fun x hx => h x (List.mem_cons_of_mem f hx)]

/-- The call-class entries that a full queue may lose: not the one in hand (R167). -/
def Band.mayLose (b : Band) (l : List Frame) : List Frame := if b.hand.any (fun g => g.cls == .call) then l.tail else l

theorem Band.inHand_eq_any (b : Band) (c : FrameClass) : b.inHand c = b.hand.any fun g => g.cls == c := by
  unfold Band.inHand; cases b.hand <;> rfl

/-- R167: without a WAIT that is not in hand, a full queue loses none. -/
theorem Band.displaceWait_none {b : Band} (h : ∀ x ∈ b.mayLose b.calls, x.kind ≠ .wait) : b.displaceWait = none := by
  rw [Band.displaceWait, Band.inHand_eq_any]
  rw [Band.mayLose] at h
  split
  next inHand =>
    rw [if_pos inHand] at h
    split
    next => rfl
    next f rest calls => rw [calls, List.tail_cons] at h; rw [withoutWait_none h]; rfl
  next notInHand => rw [if_neg notInHand] at h; exact withoutWait_none h

/-- R167: the oldest WAIT that is not in hand leaves a full queue. -/
theorem Band.displaceWait_oldest {b : Band} {before after : List Frame} {w : Frame} (calls : b.calls = before ++ w :: after)
    (wait : w.kind = .wait) (notInHand : ∀ g, b.hand = some g → g.cls = .call → before ≠ [])
    (h : ∀ x ∈ b.mayLose before, x.kind ≠ .wait) : b.displaceWait = some (before ++ after) := by
  rw [Band.displaceWait, Band.inHand_eq_any, calls]
  rw [Band.mayLose] at h
  split
  next inHand =>
    rw [if_pos inHand] at h
    obtain ⟨g, hand, call⟩ := (Option.any_eq_true _ _).mp inHand
    cases before with
    | nil => exact absurd rfl (notInHand g hand (by simpa using call))
    | cons f rest => exact congrArg (Option.map (f :: ·)) (withoutWait_oldest h wait)
  next notInHand => rw [if_neg notInHand] at h; exact withoutWait_oldest h wait

theorem Band.add_call {b : Band} {f : Frame} (cls : frameClass f.kind = .call) : b.add f = b.addCall f := by
  unfold Band.add; rw [cls]
theorem Band.add_offer {b : Band} {f : Frame} (cls : frameClass f.kind = .offer) : b.add f = b.addOffer f := by
  unfold Band.add; rw [cls]
theorem Band.add_service {b : Band} {f : Frame} (cls : frameClass f.kind = .service) : b.add f = b.addService f := by
  unfold Band.add; rw [cls]

/-- R167: a call frame with room in the queue. -/
theorem Band.addCall_room {b : Band} (f : Frame) (room : b.size < 12) :
    b.addCall f = ({ b with calls := b.calls ++ [f] }, false) := if_pos room

/-- R167: a call frame on a full queue that can lose a WAIT. -/
theorem Band.addCall_displaces {b : Band} {rest : List Frame} (f : Frame) (full : 12 ≤ b.size)
    (wait : b.displaceWait = some rest) : b.addCall f = ({ b with calls := rest ++ [f] }, true) := by
  rw [Band.addCall, if_neg (Nat.not_lt.mpr full), wait]

/-- R167: a call frame on a full queue without such a WAIT. -/
theorem Band.addCall_dropped {b : Band} (f : Frame) (full : 12 ≤ b.size) (wait : b.displaceWait = none) :
    b.addCall f = (b, true) := by
  rw [Band.addCall, if_neg (Nat.not_lt.mpr full), wait]

/-- R167: an OFFER with none queued. -/
theorem Band.addOffer_none {b : Band} (f : Frame) (none : b.offer = none) :
    b.addOffer f = if b.size < 12 then ({ b with offer := some f }, false) else (b, true) := by
  rw [Band.addOffer, none]

/-- R167: an OFFER takes the place of the queued one; an OFFER on the line is thereby replaced. -/
theorem Band.addOffer_some {b : Band} (f : Frame) (queued : b.offer ≠ none) :
    b.addOffer f =
      ({ b with
          offer := some f
          hand := b.hand.map fun h => if h.cls == .offer && h.line.isSome then { h with replaced := true } else h },
        false) := by
  obtain ⟨g, offer⟩ := Option.ne_none_iff_exists'.mp queued
  rw [Band.addOffer, offer]

/-- Settles O30: by the class of the frame and the room in the queue. -/
theorem handOverJoinsItsClass : Obligations.HandOverJoinsItsClass := by
  unfold Obligations.HandOverJoinsItsClass
  intro f s
  refine ⟨fun own => if_pos own, fun own cls => ?call, fun own cls => ?offer, fun own cls => ?service⟩
  case call =>
    refine ⟨fun room => handOver_joins own ((Band.add_call cls).trans (Band.addCall_room f room)),
      fun full => ⟨fun before w after calls wait notInHand none => ?_, fun none => ?_⟩⟩
    · exact handOver_loses own ((Band.add_call cls).trans
        (Band.addCall_displaces f full (Band.displaceWait_oldest calls wait notInHand none)))
    · exact handOver_loses own ((Band.add_call cls).trans (Band.addCall_dropped f full (Band.displaceWait_none none)))
  case offer =>
    refine ⟨fun none room => ?_, fun none full => ?_, fun queued => ⟨fun g hand offer line => ?_, fun free => ?_⟩⟩
    · exact handOver_joins own ((Band.add_offer cls).trans ((Band.addOffer_none f none).trans (if_pos room)))
    · exact handOver_loses own ((Band.add_offer cls).trans ((Band.addOffer_none f none).trans (if_neg (Nat.not_lt.mpr full))))
    · have replaced : (g.cls == .offer && g.line.isSome) = true := by simp [offer, Option.isSome_iff_ne_none.mpr line]
      refine (handOver_joins own ((Band.add_offer cls).trans (Band.addOffer_some f queued))).trans ?_
      dsimp only
      rw [hand, Option.map_some, if_pos replaced]
      rfl
    · have kept : (s.band.hand.map fun h => if h.cls == .offer && h.line.isSome then { h with replaced := true } else h) =
          s.band.hand := by
        cases hand : s.band.hand with
        | none => rfl
        | some g =>
          by_cases offer : g.cls = .offer
          · simp [free g hand offer]
          · simp [offer]
      refine (handOver_joins own ((Band.add_offer cls).trans (Band.addOffer_some f queued))).trans ?_
      dsimp only
      rw [kept]
      rfl
  case service =>
    refine ⟨fun few room => ?_, fun full => ?_⟩
    · exact handOver_joins own ((Band.add_service cls).trans (if_pos ⟨few, room⟩))
    · exact handOver_loses own ((Band.add_service cls).trans (if_neg fun both => by omega))

/-! ## Access to the band (10.2) -/

/-- Settles O25. -/
theorem bandActiveAndQuiet : Obligations.BandActiveAndQuiet := by
  unfold Obligations.BandActiveAndQuiet
  intro t s r
  refine ⟨exec_local rfl r rfl, fun active due => ?_, fun not => ?_⟩
  · exact exec_local rfl r (if_pos (c := _ ∧ _) ⟨by simp [active], due⟩)
  · refine exec_local rfl r (if_neg (c := _ ∧ _) fun ⟨active, due⟩ => ?_)
    rcases not with quiet | early
    · exact quiet (Option.isNone_iff_eq_none.mp active)
    · exact absurd early (Nat.not_lt.mpr due)

/-- R165: the required quiet, as the guide writes it. -/
theorem requiredQuiet_eq (n : Nat) (own : Station) :
    requiredQuiet n own = if n = 0 then ms 2 else ms 3 * n + 24 * own := by
  unfold requiredQuiet ms
  split
  · rfl
  · rw [← Nat.mul_assoc]

/-- R165: the frame in hand, WAITING, is ready when the required quiet has been reached. -/
theorem sendReady_eq {s : State} {h : Hand} (hand : s.band.hand = some h) (waiting : h.line = none) :
    sendReady s = s.band.quietFor (if h.collisions = 0 then ms 2 else ms 3 * h.collisions + 24 * s.own) s.now := by
  rw [sendReady, hand, ← requiredQuiet_eq]
  simp [waiting]

/-- R165: the first start bit of the frame in hand goes out. -/
theorem startSending_ready {s : State} {h : Hand} {edge : Time} (hand : s.band.hand = some h) (ready : sendReady s = true)
    (first : s.band.firstEdge s.now = edge) :
    startSending s =
      { s with
        band :=
          { s.band with
            hand := some { h with line := s.band.handFrame, replaced := false }, quietSince := none, startEdge := none,
            sendSince := edge, lastDominant := s.now, receiving := true } } := by
  rw [startSending, if_pos ready, hand, first]; rfl

/-- R165: a frame that is not ready is not sent (log 2). -/
theorem startSending_not {s : State} (not : sendReady s = false) : startSending s = s :=
  if_neg fun ready => Bool.false_ne_true (not.symm.trans ready)

/-- Settles O26: on a quiet band, at the start edge of another station, and on an active band. -/
theorem sendingWaitsForTheRequiredQuiet : Obligations.SendingWaitsForTheRequiredQuiet := by
  unfold Obligations.SendingWaitsForTheRequiredQuiet
  intro t h s r hand waiting
  have ready := sendReady_eq (s := startEvent t s) hand waiting
  refine ⟨fun q quiet => ⟨fun due => ?_, fun early => ?_⟩, fun e active edge => ⟨fun ends due joins => ?_, fun not => ?_⟩,
    fun active noEdge => ?_⟩
  · exact exec_local rfl r (startSending_ready (s := startEvent t s) hand
      (ready.trans ((Band.quietFor_quiet quiet _ _).trans (decide_eq_true due))) (Band.firstEdge_quiet quiet _))
  · exact exec_local rfl r (startSending_not
      (ready.trans ((Band.quietFor_quiet quiet _ _).trans (decide_eq_false (Nat.not_le.mpr early)))))
  · exact exec_local rfl r (startSending_ready (s := startEvent t s) hand
      (ready.trans ((Band.quietFor_active active _ _).mpr ⟨e, edge, ends, due, joins⟩)) (Band.firstEdge_joined active edge _))
  · refine exec_local rfl r (startSending_not (ready.trans (Bool.eq_false_iff.mpr fun joined => ?_)))
    obtain ⟨e', edge', ends, due, joins⟩ := (Band.quietFor_active active _ _).mp joined
    cases edge.symm.trans edge'
    rcases not with late | early | passed
    · exact absurd ends (Nat.not_le.mpr late)
    · exact absurd due (Nat.not_le.mpr early)
    · exact absurd joins (Nat.not_lt.mpr passed)
  · refine exec_local rfl r (startSending_not (ready.trans (Bool.eq_false_iff.mpr fun joined => ?_)))
    obtain ⟨e, edge, _⟩ := (Band.quietFor_active active _ _).mp joined
    cases noEdge.symm.trans edge

/-- R166, R167: the frame on the line has gone out whole. -/
theorem sendingDone_line {s : State} {h : Hand} {f : Frame} {b : Band} (hand : s.band.hand = some h) (line : h.line = some f)
    (left : (if h.replaced then ({ s.band with receiving := false, hand := none } : Band).takeHand
      else ({ s.band with receiving := false } : Band).removeHand) = b) :
    sendingDone s =
      { s with
        band := b,
        counters := { s.counters with framesSent := satInc s.counters.framesSent },
        out := s.out ++ [.frame (frameOctets (oct s.own) f)] } := by
  rw [sendingDone, hand, ← left]
  dsimp only
  rw [line]
  dsimp only
  split <;> rfl

/-- R166: one of the first seven collisions of the frame on the line. -/
theorem sendingCollides_again {s : State} {h : Hand} {f : Frame} (hand : s.band.hand = some h) (line : h.line = some f)
    (few : h.collisions < 7) :
    sendingCollides s =
      { s with
        counters := { s.counters with collisions := satInc s.counters.collisions },
        band := { s.band with hand := some { h with line := none, collisions := h.collisions + 1, replaced := false } } } := by
  rw [sendingCollides, hand]
  dsimp only
  rw [line, if_neg (show ¬ (some f).isNone = true from Bool.false_ne_true), if_pos (by omega)]
  rfl

/-- R166: the eighth collision of the frame on the line. -/
theorem sendingCollides_eighth {s : State} {h : Hand} {f : Frame} {b : Band} (hand : s.band.hand = some h)
    (line : h.line = some f) (eighth : 7 ≤ h.collisions) (left : s.band.removeHand = b) :
    sendingCollides s =
      { s with
        counters :=
          { s.counters with collisions := satInc s.counters.collisions,
                            framesDropped := satInc s.counters.framesDropped },
        band := b } := by
  rw [sendingCollides, hand, ← left]
  dsimp only
  rw [line, if_neg (show ¬ (some f).isNone = true from Bool.false_ne_true), if_neg (by omega)]
  rfl

/-- R166: the entry in hand leaves its queue, and the next first entry comes into hand. -/
theorem Band.removeHand_eq {b : Band} {h : Hand} (hand : b.hand = some h) :
    b.removeHand =
      match h.cls with
      | .call => { b with calls := b.calls.tail, hand := nextHand none b.calls.tail b.offer b.services }
      | .offer => { b with offer := none, hand := nextHand none b.calls none b.services }
      | .service => { b with services := b.services.tail, hand := nextHand none b.calls b.offer b.services.tail } := by
  rw [Band.removeHand, hand]
  dsimp only
  rw [Band.takeHand_eq]
  cases h.cls <;> rfl

/-- Settles O27: the frame sent, by its class, and the collision, by its number. -/
theorem framesLeaveTheQueue : Obligations.FramesLeaveTheQueue := by
  unfold Obligations.FramesLeaveTheQueue
  refine ⟨fun t h f s r hand line => ?_, fun t h f s r hand line => ⟨fun few => ?_, fun eighth call => ?_⟩⟩
  · cases replaced : h.replaced with
    | true =>
      have left := sendingDone_line (s := startEvent t s) hand line ((if_pos replaced).trans (Band.takeHand_eq _))
      exact ⟨_, exec_local rfl r left, rfl, by simp, by simp, by simp, fun _ => ⟨rfl, rfl, rfl⟩, fun g => nextHand_waits⟩
    | false =>
      have left {b : Band} (removed : ({ s.band with receiving := false } : Band).removeHand = b) :=
        sendingDone_line (s := startEvent t s) hand line ((if_neg (by simp [replaced])).trans removed)
      have removed := Band.removeHand_eq (b := { s.band with receiving := false }) hand
      cases cls : h.cls with
      | call =>
        rw [cls] at removed
        exact ⟨_, exec_local rfl r (left removed), rfl, fun _ _ => ⟨rfl, rfl, rfl⟩, by simp, by simp, by simp,
          fun g => nextHand_waits⟩
      | offer =>
        rw [cls] at removed
        exact ⟨_, exec_local rfl r (left removed), rfl, by simp, fun _ _ => ⟨rfl, rfl, rfl⟩, by simp, by simp,
          fun g => nextHand_waits⟩
      | service =>
        rw [cls] at removed
        exact ⟨_, exec_local rfl r (left removed), rfl, by simp, by simp, fun _ _ => ⟨rfl, rfl, rfl⟩, by simp,
          fun g => nextHand_waits⟩
  · exact exec_local rfl r (sendingCollides_again (s := startEvent t s) hand line few)
  · have left := Band.removeHand_eq hand
    rw [call] at left
    exact ⟨_, exec_local rfl r (sendingCollides_eighth (s := startEvent t s) hand line eighth left), rfl,
      fun g => nextHand_waits⟩

/-! ## Reception (10.4) -/

/-- R163: a frame in reception that goes wrong. -/
theorem discardReception_wrong {s : State} {e : RxError} (receiving : s.band.receiving = true)
    (wrong : receptionWrong e s = true) : discardReception e s = discardFrame s := by
  rw [discardReception, receiving, wrong]; rfl

/-- R163: without a frame in reception that goes wrong there is none to discard. -/
theorem discardReception_not {s : State} {e : RxError} (not : s.band.receiving = false ∨ receptionWrong e s = false) :
    discardReception e s = s := by
  rw [discardReception, if_neg]
  rcases not with h | h <;> simp [h]

/-- R163: a payload of more than 40 octets is discarded. -/
theorem readFrame_long {len : Nat} (act : State → State) {s : State} (receiving : s.band.receiving = true) (long : 40 < len) :
    readFrame len act s = discardFrame s := by
  rw [readFrame, if_pos receiving, if_pos long]

/-- R163, R170: a received frame is taken through its tests. -/
theorem receive_receives {f : Rx} {s : State} (kind : Nat) (h : s.receives f) : receive kind f s = takeFrame kind f (hunt s) :=
  readFrame_receiving _ h.1 h.2

/-- R170, tests 4 and 5: a frame of no known sender or kind. -/
theorem rxVerdict_dropped {own : Station} {kind : Nat} {f : Rx} (foreign : f.sender.toNat ≠ own)
    (addressed : f.target = 0 ∨ f.target.toNat = own) (unknown : 31 < f.sender.toNat ∨ kindOf kind = none) :
    rxVerdict own kind f = .dropped := by
  rw [rxVerdict, if_neg (fun c => foreign c.2), if_neg (by tauto)]
  rcases unknown with sender | kind
  · rw [if_pos sender]
  · simp [kind]

/-- R170: a frame addressed to the station, of a kind it knows, is delivered. -/
theorem rxVerdict_known {own : Station} {kind : Nat} {f : Rx} (foreign : own = 0 ∨ f.sender.toNat ≠ own)
    (addressed : f.target = 0 ∨ f.target.toNat = own) (sender : f.sender.toNat ≤ 31) (known : (kindOf kind).isSome = true) :
    rxVerdict own kind f = .delivered := by
  rw [rxVerdict, if_neg (by tauto), if_neg (by tauto), if_neg (Nat.not_lt.mpr sender),
    if_neg (by simp [Option.isSome_iff_ne_none.mp known])]

/-- R170: such a frame, from its reception to its owner. -/
theorem receive_delivers {f : Rx} {s : State} (kind : Nat) (h : s.receives f) (sender : f.sender.toNat ≤ 31)
    (foreign : s.own = 0 ∨ f.sender.toNat ≠ s.own) (addressed : f.target = 0 ∨ f.target.toNat = s.own)
    (known : (kindOf kind).isSome = true) : receive kind f s = deliver kind f (hunt s) := by
  rw [receive_receives kind h, takeFrame, hunt_own, rxVerdict_known foreign addressed sender known]

/-- R171: a report is read by no block. -/
theorem takeFrame_report {f : Rx} {s : State} (foreign : f.sender.toNat ≠ s.own) (sender : f.sender.toNat ≤ 31) :
    takeFrame 33 f s = s := by
  have verdict : rxVerdict s.own 33 f = .ignored ∨ rxVerdict s.own 33 f = .delivered := by
    rw [rxVerdict, if_neg (fun c => foreign c.2), if_neg (Nat.not_lt.mpr sender)]
    split
    · exact .inl rfl
    · exact .inr rfl
  rcases verdict with h | h <;> rw [takeFrame, h]
  rfl

/-- R60: what the arbiter does not take. -/
theorem unaddressed_eq_true {f : Rx} : unaddressed f = true ↔ f.target = 0 ∨ f.sender = 0 := by simp [unaddressed]

/-- R60, R173: a malformed CLAIM is counted. -/
theorem arbiterClaim_malformed {f : Rx} {s : State}
    (h : f.target = 0 ∨ f.sender = 0 ∨ f.payload.length ≠ 3 ∨ 1 < octAt f.payload 1) : arbiterClaim f s = s.dropFrame := by
  rw [arbiterClaim, if_pos]
  rw [unaddressed_eq_true]; tauto

/-- R60, R173: a CONNECT that is malformed or names no carriage record is counted. -/
theorem arbiterConnect_malformed {f : Rx} {s : State}
    (h : f.target = 0 ∨ f.sender = 0 ∨ f.payload.length ≠ 3 ∨ s.carriageOf f.sender.toNat (octetAt f.payload 0) = none) :
    arbiterConnect f s = s.dropFrame := by
  by_cases malformed : unaddressed f = true ∨ f.payload.length ≠ 3
  · exact if_pos malformed
  · refine arbiterConnect_discards ?_
    rw [unaddressed_eq_true] at malformed; tauto

/-- R60, R173: a RELEASE that is malformed or names neither a carriage record nor a queue entry is counted. -/
theorem arbiterRelease_malformed {f : Rx} {s : State}
    (h : f.target = 0 ∨ f.sender = 0 ∨ (s.carriageOf f.sender.toNat (octetAt f.payload 0) = none ∧
      s.queued f.sender.toNat (octetAt f.payload 0) = false)) : arbiterRelease f s = s.dropFrame := by
  by_cases malformed : unaddressed f = true
  · exact if_pos malformed
  · rw [unaddressed_eq_true] at malformed
    exact arbiterRelease_discards (by tauto) (by tauto)

/-- R171: a RELEASE that is malformed, or whose reason is the arbiter's alone, is never the origin record's. -/
theorem deliverRelease_arbiter {f : Rx} {s : State}
    (reason : f.payload.length ≠ 2 ∨ octAt f.payload 1 = 5 ∨ octAt f.payload 1 = 6) :
    deliverRelease f s = if f.payload.length ≠ 2 then s.dropFrame else arbiterRelease f s := by
  unfold deliverRelease
  split
  next => rfl
  next length =>
    rcases reason with no | late | abandon
    · exact absurd no length
    · rw [late]; rfl
    · rw [abandon]; rfl

/-- Settles O28: what goes wrong in reception, what no block reads, what the arbiter discards, and what is too long. -/
theorem unusableFramesAreCounted : Obligations.UnusableFramesAreCounted := by
  unfold Obligations.UnusableFramesAreCounted
  refine ⟨fun t e s r => ⟨fun receiving wrong => ?_, fun receiving truncated early => ?_, fun hunting => ?_⟩,
    fun t f s r receives foreign => ⟨fun kind addressed unknown => ?_, fun sender => ?_⟩,
    fun t f s r receives sender foreign addressed => ⟨fun bad => ?_, fun bad => ?_, fun reason bad => ?_⟩,
    fun t kind f s r => ⟨fun receiving long => ?_, fun hunting => ?_⟩⟩
  · refine exec_local rfl r (discardReception_wrong (s := startEvent t s) receiving ?_)
    rcases wrong with rfl | ⟨rfl, rested⟩ | ⟨len, rfl, long⟩ | ⟨octets, rfl, bad⟩
    · rfl
    · exact decide_eq_true rested
    · exact decide_eq_true long
    · simp [receptionWrong, bad]
  · refine exec_local rfl r (discardReception_not (s := startEvent t s) (.inr ?_))
    rw [truncated]
    exact decide_eq_false (Nat.not_le.mpr early)
  · exact exec_local rfl r (discardReception_not (s := startEvent t s) (.inl hunting))
  · have dropped : receive kind.toNat f (startEvent t s) = (hunt (startEvent t s)).dropFrame := by
      rw [receive_receives (s := startEvent t s) _ receives, takeFrame, hunt_own]
      rw [rxVerdict_dropped (own := (startEvent t s).own) foreign addressed unknown]
    exact exec_unnoticed rfl r dropped ⟨rfl, rfl, rfl, rfl, rfl, rfl⟩
  · have read := (receive_receives (s := startEvent t s) 33 receives).trans (takeFrame_report foreign sender)
    exact exec_unnoticed rfl r read ⟨rfl, rfl, rfl, rfl, rfl, rfl⟩
  · have read := receive_delivers (s := startEvent t s) 7 receives sender foreign addressed rfl
    have run := read.trans (arbiterClaim_malformed bad)
    exact ⟨exec_unnoticed rfl r run ⟨rfl, rfl, rfl, rfl, rfl, rfl⟩, exec_unnoticed rfl r run ⟨rfl, rfl, rfl, rfl, rfl, rfl⟩⟩
  · have read := receive_delivers (s := startEvent t s) 4 receives sender foreign addressed rfl
    exact exec_unnoticed rfl r (read.trans (arbiterConnect_malformed bad)) ⟨rfl, rfl, rfl, rfl, rfl, rfl⟩
  · have read := receive_delivers (s := startEvent t s) 6 receives sender foreign addressed rfl
    have dropped : deliverRelease f (hunt (startEvent t s)) = (hunt (startEvent t s)).dropFrame := by
      rw [deliverRelease_arbiter reason]
      split
      next => rfl
      next length => exact arbiterRelease_malformed (by tauto)
    exact exec_unnoticed rfl r (read.trans dropped) ⟨rfl, rfl, rfl, rfl, rfl, rfl⟩
  · exact exec_unnoticed rfl r (readFrame_long (s := startEvent t s) _ receiving long) ⟨rfl, rfl, rfl, rfl, rfl, rfl⟩
  · exact exec_unnoticed rfl r (readFrame_hunting (s := startEvent t s) _ _ hunting) ⟨rfl, rfl, rfl, rfl, rfl, rfl⟩

/-! ## The duplicate-number fault (R172) -/

/-- R167: what a hand-over changes of the band is the queue and the frame in hand. -/
theorem handOver_band (f : Frame) (s : State) :
    ∃ calls offer services hand, (handOver f s).band =
      { s.band with calls := calls, offer := offer, services := services, hand := hand } := by
  have add : ∃ calls offer services hand, (s.band.add f).1 =
      { s.band with calls := calls, offer := offer, services := services, hand := hand } := by
    cases cls : frameClass f.kind with
    | call =>
      rw [Band.add_call cls, Band.addCall]
      split
      · exact ⟨_, _, _, _, rfl⟩
      · split <;> exact ⟨_, _, _, _, rfl⟩
    | offer =>
      rw [Band.add_offer cls, Band.addOffer]
      split
      · exact ⟨_, _, _, _, rfl⟩
      · split <;> exact ⟨_, _, _, _, rfl⟩
    | service =>
      rw [Band.add_service cls, Band.addService]
      split <;> exact ⟨_, _, _, _, rfl⟩
  obtain ⟨calls, offer, services, hand, add⟩ := add
  rw [handOver_eq, add, Band.takeHand_eq]
  split
  · exact ⟨_, _, _, _, rfl⟩
  · split <;> exact ⟨_, _, _, _, rfl⟩

/-- R10: the schedule, the queue and the counts are all that withdrawing an offer changes. -/
theorem flagTurnsNo_form (s : State) :
    ∃ x calls offer services hand c, x.phase = .withdrawn ∧ flagTurnsNo s =
      { s with sched := x, counters := c,
               band := { s.band with calls := calls, offer := offer, services := services, hand := hand } } := by
  cases gap : spaced s with
  | true =>
    obtain ⟨calls, offer, services, hand, band⟩ := handOver_band (offerFrame s.content) s
    refine ⟨{ s.sched.turnedNo with lastHandover := some s.now, withdrawalOwed := false }, calls, offer, services, hand,
      (handOver (offerFrame s.content) s).counters, rfl, (flagTurnsNo_spaced gap).trans ?_⟩
    rw [handOver_form, band]
  | false => exact ⟨s.sched.turnedNo, _, _, _, _, _, rfl, flagTurnsNo_owed gap⟩

/-- R10: a state whose offering flag is no, with nothing else new for the builder. -/
theorem offerSync_notOffering {s0 s : State} (no : s.offeringFlag = false) (same : offerInputsChanged s0 s = false) :
    ∃ x calls offer services hand c, offerSync s0 s =
      { s with sched := x, counters := c,
               band := { s.band with calls := calls, offer := offer, services := services, hand := hand } } ∧
      (s0.offeringFlag = true → s.sched.phase = .active → x.phase = .withdrawn) ∧
      (s0.offeringFlag = false → x = s.sched) := by
  cases before : s0.offeringFlag with
  | false => exact ⟨_, _, _, _, _, _, offerSync_same (no.trans before.symm) same, by simp, fun _ => rfl⟩
  | true =>
    by_cases phase : s.sched.phase = .active
    · obtain ⟨x, calls, offer, services, hand, c, withdrawn, form⟩ := flagTurnsNo_form s
      exact ⟨x, calls, offer, services, hand, c, (offerSync_turnsNo before no phase).trans form, fun _ _ => withdrawn,
        fun h => by cases h⟩
    · have unmoved : offerSync s0 s = s := by
        unfold offerSync
        rw [before, no, if_pos (by decide)]
        cases h : s.sched.phase <;> simp_all
      exact ⟨_, _, _, _, _, _, unmoved, fun _ active => absurd active phase, fun _ => rfl⟩

/-- Settles O29: the frame sets the fault, and the builder's comparison withdraws the offer. -/
theorem duplicateFrameSetsTheFault : Obligations.DuplicateFrameSetsTheFault := by
  unfold Obligations.DuplicateFrameSetsTheFault
  intro t s r own receiving
  have read := (readFrame_receiving (s := startEvent t s) (len := 0) duplicateHeard receiving (by decide)).trans (if_neg own)
  have event := event_noNotice r read rfl rfl
  obtain ⟨x, calls, offer, services, hand, c, synced, withdrawn, same⟩ :=
    offerSync_notOffering (s0 := startEvent t s)
      (s := formWanted ((hunt (startEvent t s)).updBand fun b =>
        { b with dupFault := true, dupFrames := satInc b.dupFrames }))
      (by simp [State.offeringFlag, formWanted, State.updBand])
      (by simp [offerInputsChanged, formWanted, State.updBand, hunt])
  refine ⟨_, congrArg Host.Outcome.next (event.trans synced), rfl, rfl, rfl, rfl, ?_, ?_, ?_, withdrawn, same⟩
  · simp [State.offeringFlag, formWanted, State.updBand]
  · exact Lamp.want_requested _ _ _
  · refine (Lamp.want_wanted _ _ _).trans ?_
    show (if s.lamp.requested = .dark ∧ (s.own = 0 ∨ true = true) then LampPattern.fault else s.lamp.requested) = _
    simp only [or_true, and_true]

end Sys2Proof.Machine

/-! # What routes, lanes and engines become (07, 08) -/

namespace Sys2Proof.Machine

/-! ## Events whose operation hands frames over -/

/-- R167: a hand-over brings about nothing further. -/
theorem Unnoticed.handOver {s0 u : State} (h : Unnoticed s0 u) (f : Frame) : Unnoticed s0 (handOver f u) where
  notices := (handOver_notices f u).trans h.notices
  straps := (handOver_straps f u).trans h.straps
  supply := (congrArg SupplyMonitor.state (handOver_supply f u)).trans h.supply
  dup := (handOver_dupFault f u).trans h.dup
  modules := (handOver_modules f u).trans h.modules
  claims := (congrArg List.length (handOver_claims f u)).trans h.claims

/-- A command whose operation ends with a hand-over and brings about nothing further. -/
theorem exec_handsOver {c : Instr} {t : Time} {op : State → State} {s u : State} {f : Frame}
    (arm : exec c s = .next (event t op s)) (r : s.inReset = false) (run : op (startEvent t s) = handOver f u)
    (h : Unnoticed (startEvent t s) u) : exec c s = .next (handOver f u) :=
  exec_unnoticed arm r run (h.handOver f)

/-- R163: the receiver hunts, and nothing further follows. -/
theorem unnoticed_hunt (t : Time) (s : State) : Unnoticed (startEvent t s) (hunt (startEvent t s)) :=
  ⟨rfl, rfl, rfl, rfl, rfl, rfl⟩

/-- R113: the notices of one module that a command changes. -/
theorem freedNotices_set {s0 s1 : State} {m : Mod} {r : Module} (set : s1.modules = s0.modules.set m r)
    (not : (s0.mod m).grantable = false → r.grantable = false) : freedNotices s0 s1 = [] := by
  have nothing (k : Mod) : turnsGrantable k s0 s1 = false := by
    unfold turnsGrantable State.mod
    rw [set]
    by_cases same : k = m
    · subst same
      rw [PerMod.get_set_self]
      cases before : (s0.mod k).grantable with
      | true => exact Bool.and_eq_false_iff.mpr (.inl (by rw [State.mod] at before; rw [before]; rfl))
      | false => rw [not before, Bool.and_false]
    · rw [PerMod.get_set_ne _ _ _ _ same]
      simp
  unfold freedNotices
  rw [nothing, nothing]; rfl

/-- An event whose operation gives no notice and makes no module grantable is its operation, with the builder's comparison. -/
theorem event_sync {t : Time} {op : State → State} {s u : State} (r : s.inReset = false)
    (run : op (startEvent t s) = u) (notices : u.notices = []) (freed : freedNotices (startEvent t s) u = []) :
    event t op s = offerSync (startEvent t s) u := by
  have kept : noting op (startEvent t s) = u := by
    rw [noting, run, noteFreed_eq, freed, List.append_nil]
  rw [event_eq t op s r, kept, drain_nil _ notices]

/-! ## Routes (8.2) -/

/-- R143: the switch without the base routes that an owner set. -/
def Switch.without (o : Owner) (c : Switch) : Switch :=
  { c with
    speaker := c.speaker.clearOwned o
    modTx := { a := c.modTx.a.clearOwned o, b := c.modTx.b.clearOwned o }
    laneTx :=
      { l1 := c.laneTx.l1.clearOwned o, l2 := c.laneTx.l2.clearOwned o, l3 := c.laneTx.l3.clearOwned o,
        l4 := c.laneTx.l4.clearOwned o, l5 := c.laneTx.l5.clearOwned o, l6 := c.laneTx.l6.clearOwned o } }

theorem clearRoutes_eq (o : Owner) (s : State) : clearRoutes o s = { s with csw := s.csw.without o } := rfl

theorem Switch.without_slot (o : Owner) (c : Switch) (d : Dest) : (c.without o).slot d = (c.slot d).clearOwned o := by
  cases d with
  | speaker => rfl
  | modTx m => cases m <;> rfl
  | lane l => cases l <;> rfl

theorem Slot.clearOwned_owner (x : Slot) (o : Owner) : (x.clearOwned o).owner ≠ some o := by
  unfold Slot.clearOwned; split
  · simp
  · assumption

@[simp] theorem Slot.clearOwned_overlay (x : Slot) (o : Owner) : (x.clearOwned o).overlay = x.overlay := by
  unfold Slot.clearOwned; split <;> rfl

/-- R143: no destination is left with a route of the owner. -/
theorem Switch.without_owner (o : Owner) (c : Switch) (d : Dest) : ((c.without o).slot d).owner ≠ some o := by
  rw [Switch.without_slot]; exact Slot.clearOwned_owner _ _

/-! ## Lanes (7.2, 7.5) -/

/-- R127: a quarantine lasts 10,000 ms at least. -/
theorem quarantineLane_eq (l : Lane) (s : State) :
    ∃ q, s.now + quarantineTime ≤ q ∧
      quarantineLane l s = { s with lanes := s.lanes.set l { s.lane l with quarantineUntil := some q } } := by
  cases old : (s.lane l).quarantineUntil with
  | none =>
    refine ⟨_, Nat.le_refl _, ?_⟩
    unfold quarantineLane State.updLane
    rw [State.lane] at old ⊢
    simp only [old]
  | some q =>
    by_cases earlier : q < s.now + quarantineTime
    · refine ⟨_, Nat.le_refl _, ?_⟩
      unfold quarantineLane State.updLane
      rw [State.lane] at old ⊢
      simp only [old, if_pos earlier]
    · refine ⟨q, Nat.not_lt.mp earlier, ?_⟩
      unfold quarantineLane State.updLane
      rw [State.lane] at old ⊢
      simp only [old, if_neg earlier]
      rw [← old]

/-- R138, R145: supervision ends with its gap mark; all else stays. -/
theorem endSupervision_eq (l : Lane) (s : State) :
    ∃ g a b, endSupervision l s =
      { s with lanes := s.lanes.set l { s.lane l with supervised := false, gapStart := g },
               csw := { s.csw with gapA := a, gapB := b } } := by
  unfold endSupervision
  dsimp only
  split
  next supervised =>
    split
    next o owner =>
      unfold setGapMark
      cases receiveHalfOf o <;> exact ⟨none, _, _, rfl⟩
    next => exact ⟨none, s.csw.gapA, s.csw.gapB, rfl⟩
  next not =>
    refine ⟨(s.lane l).gapStart, s.csw.gapA, s.csw.gapB, ?_⟩
    have same : ({ s.lane l with supervised := false, gapStart := (s.lane l).gapStart } : LaneEntry) = s.lane l := by
      have := Bool.eq_false_iff.mpr not
      cases h : s.lane l
      simp_all
    rw [same]
    show s = { s with lanes := s.lanes.set l (s.lanes.get l) }
    rw [PerLane.set_get_self]

/-- R126: the engine of an owner is stopped when it works on the lane released. -/
theorem stopEngine_if (i : EngineId) (p : Prop) [Decidable p] (s : State) :
    ∃ e, (if p then stopEngine i s else s) = { s with engines := s.engines.set i e } ∧
      (e = s.engine i ∨ e = (s.engine i).stopped) ∧ (p → e = (s.engine i).stopped) := by
  by_cases works : p
  · exact ⟨_, if_pos works, .inr rfl, fun _ => rfl⟩
  · refine ⟨s.engine i, (if_neg works).trans ?_, .inl rfl, fun h => absurd h works⟩
    show s = { s with engines := s.engines.set i (s.engines.get i) }
    rw [PerEngine.set_get_self]

/-- R122: the notice of a lane that is free for choosing. -/
theorem noticeIfFree_eq (l : Lane) (s : State) :
    ∃ ns, noticeIfFree l s = { s with notices := s.notices ++ ns } ∧ ns.length ≤ 1 ∧ ∀ n ∈ ns, n.quiet = true := by
  unfold noticeIfFree
  split
  · exact ⟨[.laneFree l], rfl, by simp, by simp [Notice.quiet]⟩
  · exact ⟨[], by simp, by simp, by simp⟩

/-- R126: the lane as its owner releases it, OWN: BUSY, its quiet counted from now unless carrier is heard. -/
def LaneEntry.released (x : LaneEntry) (now : Time) (gap : Option Time) : LaneEntry :=
  { x with
    occupancy := .busy, owner := none, supervised := false, gapStart := gap,
    quietSince := if x.carrierA = true ∨ x.carrierB = true then none else some now }

/-- R126: what the release of a lane leaves: the lane, the engine, and the notice of a lane that became free. -/
structure Released (l : Lane) (o : Owner) (s : State) (x : LaneEntry) (e : Engine) (ns : List Notice) : Prop where
  quiet : ∀ n ∈ ns, n.quiet = true
  few : ns.length ≤ 1
  engine : e = s.engine (engineOf o) ∨ e = (s.engine (engineOf o)).stopped
  stopped : (s.lane l).owner = some o → (s.engine (engineOf o)).lane = some l → e = (s.engine (engineOf o)).stopped
  own : (s.lane l).occupancy = .own → (s.lane l).owner = some o → ns = [] ∧ ∃ g, x = (s.lane l).released s.now g
  held : (s.lane l).occupancy ≠ .own → (s.lane l).owner = some o →
    ∃ g, x = { s.lane l with owner := none, supervised := false, gapStart := g }

/-- R126: the release of a lane changes the lane, the gap marks, the engine on it and the notices. -/
theorem releaseLane_eq (l : Lane) (o : Owner) (s : State) :
    ∃ x a b e ns, releaseLane l o s =
      { s with
        lanes := s.lanes.set l x, csw := { s.csw with gapA := a, gapB := b },
        engines := s.engines.set (engineOf o) e, notices := s.notices ++ ns } ∧ Released l o s x e ns := by
  by_cases owner : (s.lane l).owner = some o
  · obtain ⟨g, a, b, ended⟩ := endSupervision_eq l s
    obtain ⟨e, stopped, engine, works⟩ := stopEngine_if (engineOf o) ((endSupervision l s |>.engine (engineOf o)).lane = some l)
      (endSupervision l s)
    by_cases own : (s.lane l).occupancy = .own
    · refine ⟨(s.lane l).released s.now g, a, b, e, [], ?_, by simp, by simp, ?_, fun _ => ?_,
        fun _ _ => ⟨rfl, g, rfl⟩, fun h => absurd own h⟩
      · unfold releaseLane
        dsimp only
        rw [if_pos owner, if_pos own, stopped, ended]
        simp only [State.updLane, PerLane.get_set_self, PerLane.set_set, List.append_nil, LaneEntry.released, Bool.or_eq_true]
      · rw [ended] at engine; exact engine
      · rw [ended] at works; exact works
    · obtain ⟨ns, noticed, few, quiet⟩ := noticeIfFree_eq l ((if (endSupervision l s |>.engine (engineOf o)).lane = some l then
        stopEngine (engineOf o) (endSupervision l s) else endSupervision l s).updLane l fun x => { x with owner := none })
      refine ⟨{ s.lane l with owner := none, supervised := false, gapStart := g }, a, b, e, ns, ?_, quiet, few, ?_, fun _ => ?_,
        fun h => absurd h own, fun _ _ => ⟨g, rfl⟩⟩
      · unfold releaseLane
        dsimp only
        rw [if_pos owner, if_neg own, noticed, stopped, ended]
        simp only [State.updLane, PerLane.get_set_self, PerLane.set_set]
      · rw [ended] at engine; exact engine
      · rw [ended] at works; exact works
  · refine ⟨s.lane l, s.csw.gapA, s.csw.gapB, s.engine (engineOf o), [], (if_neg owner).trans ?_, by simp, by simp, .inl rfl,
      fun h => absurd h owner, fun _ h => absurd h owner, fun _ h => absurd h owner⟩
    show s = { s with lanes := s.lanes.set l (s.lanes.get l), engines := s.engines.set _ (s.engines.get _),
                      notices := s.notices ++ [] }
    rw [PerLane.set_get_self, PerEngine.set_get_self, List.append_nil]

/-- R124, R125: a lane is taken, OWN. -/
theorem takeLane_eq (l : Lane) (o : Owner) (s : State) :
    ∃ x, takeLane l o s = { s with lanes := s.lanes.set l x } ∧ x.occupancy = .own ∧ x.owner = some o := by
  refine ⟨_, rfl, ?_, ?_⟩
  all_goals
    dsimp only
    split
    next h _ => cases h <;> rfl
    next => rfl

/-! ## Engines (7.3) -/

/-- R131: an engine as it starts for its user. -/
structure Started (o : Owner) (l : Lane) (seed : BitVec 15) (generate check : Bool) (now : Time) (x : Engine) : Prop where
  user : x.user = some o
  lane : x.lane = some l
  genSeed : x.genSeed = seed
  genStart : x.genStart = now
  checkStart : x.checkStart = now
  generator : x.generator = if generate then .running else .idle
  checker : x.checker = if check then .settle else .idle
  transmitHalf : x.transmitHalf = (startHalves o generate check).1
  receiveHalf : x.receiveHalf = (startHalves o generate check).2

/-- R131: starting an engine changes that engine only. -/
theorem startEngine_eq (o : Owner) (l : Lane) (seed : BitVec 15) (generate check : Bool) (s : State) :
    ∃ x, startEngine o l seed generate check s = { s with engines := s.engines.set (engineOf o) x } ∧
      Started o l seed generate check s.now x := by
  refine ⟨_, rfl, ?_⟩
  cases check <;> exact ⟨rfl, rfl, rfl, rfl, rfl, rfl, rfl, rfl, rfl⟩

/-! ## Base routes (8.2) -/

theorem Switch.setSlot_slot (c : Switch) (d : Dest) : c.setSlot d (c.slot d) = c := by
  cases d <;> simp [Switch.setSlot, Switch.slot]

/-- R143, R144: a route is set at its destination; one from a lane that is new there is held for 600 ms. -/
theorem setRoute_eq (d : Dest) (src : Source) (o : Owner) (s : State) :
    ∃ x, setRoute d src o s = { s with csw := s.csw.setSlot d x } ∧ x.base = some src ∧
      x.overlay = (s.csw.slot d).overlay ∧
      ((s.csw.slot d).base ≠ some src → x.owner = some o ∧
        x.holdUntil = if src.isLane then some (s.now + holdTime) else none) := by
  unfold setRoute
  dsimp only
  split
  next same => exact ⟨s.csw.slot d, by rw [Switch.setSlot_slot], same, rfl, fun new => absurd same new⟩
  next new => exact ⟨_, rfl, rfl, rfl, fun _ => ⟨rfl, rfl⟩⟩

/-! ## Codes and lanes (04, 4.8) -/

@[simp] theorem laneOfNumber_laneNumber (l : Lane) : laneOfNumber (laneNumber l) = some l := by cases l <;> rfl
@[simp] theorem modOfCode_modCode (m : Mod) : modOfCode (modCode m) = some m := by cases m <;> rfl
@[simp] theorem stageOf_stageCode (st : Stage) : stageOf (stageCode st) = some st := by cases st <;> rfl

/-! ## Prompts that end (8.3) -/

/-- R147, R148: a prompt that ends: its player is idle, its destination free of it, and all else of the switch stays. -/
structure PromptEnds (p : PlayerId) (c w : Switch) : Prop where
  idle : (w.players.get p).state = .idle
  overlay : (w.slot (playerDest p)).overlay = none
  route : ∀ d, (w.slot d).base = (c.slot d).base ∧ (w.slot d).owner = (c.slot d).owner ∧
    (w.slot d).holdUntil = (c.slot d).holdUntil
  other : ∀ d, d ≠ playerDest p → w.slot d = c.slot d
  ident : w.ident = c.ident

/-- R147, R148: a prompt ends with a signal. -/
theorem endPrompt_spec (p : PlayerId) (why : SignalReason) (s : State) :
    ∃ w x, endPrompt p why s = { s with csw := w, out := x } ∧ PromptEnds p s.csw w := by
  refine ⟨_, _, signalOwner_form _ _ _ _ _, ?_⟩
  have slot (c : Switch) (q : PerPlayer Player) (d : Dest) : ({ c with players := q } : Switch).slot d = c.slot d := by
    cases d <;> rfl
  refine ⟨?_, ?_, fun d => ?_, fun d other => ?_, ?_⟩
  all_goals dsimp only [setOverlay, idlePlayer, State.updCsw]
  · rw [Switch.setSlot_players, PerPlayer.get_set_self]
  · rw [Switch.slot_setSlot_self]
  · by_cases same : d = playerDest p
    · subst same; rw [Switch.slot_setSlot_self, slot]; exact ⟨rfl, rfl, rfl⟩
    · rw [Switch.slot_setSlot_ne _ _ same, slot]; exact ⟨rfl, rfl, rfl⟩
  · rw [Switch.slot_setSlot_ne _ _ other, slot]
  · rw [Switch.setSlot_ident]

/-- R148: a prompt that is asked to end ends when it plays, and nothing changes when it does not. -/
theorem stopPrompt_spec (p : PlayerId) (which : Option Prompt) (s : State) :
    ∃ w x, stopPrompt p which s = { s with csw := w, out := x } ∧
      (playerPlays s p which = true → PromptEnds p s.csw w) ∧
      (playerPlays s p which = false → w = s.csw ∧ x = s.out) := by
  unfold stopPrompt
  split
  next plays =>
    obtain ⟨w, x, run, ends⟩ := endPrompt_spec p .stopped s
    exact ⟨w, x, run, fun _ => ends, fun h => absurd (h.symm.trans plays) Bool.false_ne_true⟩
  next not => exact ⟨_, _, rfl, fun h => absurd h not, fun _ => ⟨rfl, rfl⟩⟩

/-- R148: after any prompt of a player has been asked to end, the player is idle. -/
theorem stopPrompt_any (p : PlayerId) (s : State) :
    ∃ w x, stopPrompt p none s = { s with csw := w, out := x } ∧ (w.players.get p).state = .idle := by
  obtain ⟨w, x, run, ends, kept⟩ := stopPrompt_spec p none s
  refine ⟨w, x, run, ?_⟩
  cases plays : playerPlays s p none with
  | true => exact (ends plays).idle
  | false =>
    obtain ⟨rfl, _⟩ := kept plays
    simpa [playerPlays] using plays

end Sys2Proof.Machine

/-! # Call Origin Controller (03) -/

namespace Sys2Proof.Machine

/-! ## The path and its lane -/

/-- The origin record is on a PEER path to a station. -/
theorem Origin.onPeer_peer {c : Origin} {st : Station} (h : c.onPeer st) : c.peer = some st := by
  obtain ⟨m, path⟩ := h; unfold Origin.peer; rw [path]
theorem Origin.onPeer_lane {c : Origin} {st : Station} (h : c.onPeer st) : c.lane = none := by
  obtain ⟨m, path⟩ := h; unfold Origin.lane; rw [path]
theorem Origin.onLane_peer {c : Origin} {st : Station} {l : Lane} (h : c.onLane st l) : c.peer = some st := by
  obtain ⟨m, path⟩ := h; unfold Origin.peer; rw [path]
theorem Origin.onLane_lane {c : Origin} {st : Station} {l : Lane} (h : c.onLane st l) : c.lane = some l := by
  obtain ⟨m, path⟩ := h; unfold Origin.lane; rw [path]
theorem onLocalPath_onPeer {s : State} {st : Station} (h : s.coc.onPeer st) : s.onLocalPath = false := by
  obtain ⟨m, path⟩ := h; unfold State.onLocalPath; rw [path]; rfl

/-- R33: what belongs to the present claim. -/
theorem belongs_true {s : State} {st : Station} {tag : Tag} (awaits : s.coc.state.awaitsUplink = true)
    (peer : s.coc.peer = some st) (tagged : tag = s.coc.tag) : s.belongs st tag = true := by
  unfold State.belongs; rw [awaits, peer, tagged]; simp

/-- R33: a frame of the right length for the origin record is taken. -/
theorem originFrame_heard {f : Rx} {s : State} {len : Nat} (act : State → State) (heard : s.hears f)
    (length : f.payload.length = len) (u : State) : originFrame len f act u = act u := by
  obtain ⟨target, _, sender, _⟩ := heard
  rw [originFrame, if_neg (not_not.mpr length), if_neg (not_or.mpr ⟨target, sender⟩)]

/-- R56: a record without a lane only clears its routes. -/
theorem dropLane_none {s : State} (quarantine : Bool) (noLane : s.coc.lane = none) :
    dropLane quarantine s = { s with csw := s.csw.without .origin } := by
  have lane : (clearRoutes .origin s).coc.lane = none := noLane
  unfold dropLane
  dsimp only
  rw [lane]
  rfl

/-- The uplink of a PEER path is told. -/
theorem releaseUplink_peer {s : State} {st : Station} (r : ReleaseReason) (peer : s.coc.peer = some st) :
    releaseUplink r s = handOver (releaseFrame st s.coc.tag r) s := by unfold releaseUplink; rw [peer]

/-! ## The search (3.3) -/

/-- R53, R36: the record as it waits in SEEKING. -/
def Origin.waiting (c : Origin) (now : Time) : Origin := { c.seeking now with retryTime := some (now + retryWait) }

/-- R38 to R45: a NEW claim on a PEER path without a lane fails: its uplink is avoided, and without a candidate the record
waits. -/
theorem failPath_new {s : State} {st : Station} (path : s.coc.onPeer st) (new : s.coc.claimKind = .new) (alone : s.noCandidate) :
    failPath false s =
      { s with
        csw := s.csw.without .origin,
        coc := ({ s.coc.settled with avoid := avoidWith s.coc.avoid st s.now } : Origin).waiting s.now,
        lamp := s.lampFor .seek } := by
  obtain ⟨m, path'⟩ := path
  have kept : failPath false s = enterSeeking (avoidPath ((dropLane false s).updCoc Origin.settled)) := by
    unfold failPath
    dsimp only
    rw [if_neg Bool.false_ne_true, dropLane_none false (Origin.onPeer_lane ⟨m, path'⟩)]
    unfold State.updCoc Origin.settled
    dsimp only
    rw [new]
  have avoided : avoidPath ((dropLane false s).updCoc Origin.settled) =
      { s with csw := s.csw.without .origin,
               coc := { s.coc.settled with avoid := avoidWith s.coc.avoid st s.now } } := by
    rw [dropLane_none false (Origin.onPeer_lane ⟨m, path'⟩)]
    unfold avoidPath State.updCoc Origin.settled
    dsimp only
    rw [path']
    rfl
  rw [kept, avoided]
  exact enterSeeking_noCandidate alone

/-- R38, R40, R43: the same with RELEASE(ABANDON) first. -/
theorem failPath_abandons {s : State} {st : Station} (path : s.coc.onPeer st) :
    failPath true s = failPath false (handOver (releaseFrame st s.coc.tag .abandon) s) := by
  rw [← releaseUplink_peer .abandon (Origin.onPeer_peer path)]; rfl

/-- Settles O32. -/
theorem unansweredClaimIsSentAgain : Obligations.UnansweredClaimIsSentAgain := by
  unfold Obligations.UnansweredClaimIsSentAgain
  intro t d st s r state peer deadline due few
  have run : answerReached (startEvent t s) =
      handOver (claimFrame st s.coc.tag s.coc.claimKind s.laneMask)
        { startEvent t s with
          coc := { s.coc with attempts := s.coc.attempts + 1, answerDeadline := some (max s.now t + ms 1500) } } := by
    have reached : (startEvent t s).due (startEvent t s).coc.answerDeadline = true := startEvent_due deadline due
    have peer' : (startEvent t s).coc.peer = some st := peer
    unfold answerReached
    rw [if_pos reached, peer']
    dsimp only
    rcases state with claiming | recovering
    · have state' : (startEvent t s).coc.state = .claiming := claiming
      rw [state']
      exact if_pos few
    · have state' : (startEvent t s).coc.state = .recovering := recovering
      rw [state']
      exact if_pos few
  exact exec_handsOver rfl r run ⟨rfl, rfl, rfl, rfl, rfl, rfl⟩

/-- Settles O33: each way in which a NEW claim fails ends in `failPath`. -/
theorem failedClaimSeeksAgain : Obligations.FailedClaimSeeksAgain := by
  unfold Obligations.FailedClaimSeeksAgain
  intro t d st s r path new alone
  -- the claim given up, with RELEASE(ABANDON) handed over first
  have abandons : ∃ u, failPath true (startEvent t s) = u ∧ Unnoticed (startEvent t s) u ∧
      (u = { startEvent t s with
            coc := u.coc, lamp := u.lamp, band := u.band, counters := u.counters, csw := u.csw } ∧
        u.coc.state = .seeking ∧ u.coc.path = none ∧ u.coc.tag = s.coc.tag ∧
        u.coc.avoid = avoidWith s.coc.avoid st (max s.now t) ∧ u.coc.answerDeadline = none ∧
        u.coc.silenceDeadline = none ∧ u.coc.regrantWait = none ∧ u.coc.retryTime = some (max s.now t + ms 2000)) ∧
      u.band = (handOver (releaseFrame st s.coc.tag .abandon) s).band := by
    have told := handOver_form (releaseFrame st s.coc.tag .abandon) (startEvent t s)
    obtain ⟨band, _⟩ := handOver_congr (releaseFrame st s.coc.tag .abandon) (u := startEvent t s) (s := s) rfl rfl rfl
    have unnoticed : Unnoticed (startEvent t s) (handOver (releaseFrame st s.coc.tag .abandon) (startEvent t s)) :=
      Unnoticed.handOver ⟨rfl, rfl, rfl, rfl, rfl, rfl⟩ _
    have run := failPath_abandons (s := startEvent t s) path
    rw [show (startEvent t s).coc.tag = s.coc.tag from rfl, told] at run
    rw [told] at unnoticed
    have failed := failPath_new (s := { startEvent t s with
      band := (handOver (releaseFrame st s.coc.tag .abandon) (startEvent t s)).band,
      counters := (handOver (releaseFrame st s.coc.tag .abandon) (startEvent t s)).counters }) path new alone
    exact ⟨_, run.trans failed, ⟨rfl, rfl, rfl, unnoticed.dup, rfl, rfl⟩,
      ⟨rfl, rfl, rfl, rfl, rfl, rfl, rfl, rfl, rfl⟩, band⟩
  obtain ⟨u, run, unnoticed, after, band⟩ := abandons
  refine ⟨fun state deadline due third => ?_, fun state deadline due => ?_, fun state deadline due => ?_,
    fun f heard sender length tag state => ?_⟩
  · have reached : answerReached (startEvent t s) = failPath true (startEvent t s) := by
      have due' : (startEvent t s).due (startEvent t s).coc.answerDeadline = true := startEvent_due deadline due
      have peer : (startEvent t s).coc.peer = some st := Origin.onPeer_peer path
      have state' : (startEvent t s).coc.state = .claiming := state
      unfold answerReached
      rw [if_pos due', peer]
      dsimp only
      rw [state']
      exact if_neg (by rw [startEvent_coc, third]; decide)
    exact ⟨u, exec_unnoticed rfl r (reached.trans run) unnoticed, after, band⟩
  · have reached : silenceReached (startEvent t s) = failPath true (startEvent t s) :=
      if_pos ⟨state, startEvent_due deadline due⟩
    exact ⟨u, exec_unnoticed rfl r (reached.trans run) unnoticed, after, band⟩
  · have reached : regrantReached (startEvent t s) = failPath true (startEvent t s) :=
      if_pos ⟨state, startEvent_due deadline due⟩
    exact ⟨u, exec_unnoticed rfl r (reached.trans run) unnoticed, after, band⟩
  · have belongs : (hunt (startEvent t s)).belongs f.sender.toNat (octetAt f.payload 0) = true := by
      refine belongs_true ?_ (sender ▸ Origin.onPeer_peer path) tag
      show s.coc.state.awaitsUplink = true
      rcases state with h | h | h <;> rw [h] <;> rfl
    have refused : originRefuse f (hunt (startEvent t s)) = failPath false (hunt (startEvent t s)) := by
      unfold originRefuse
      rw [if_pos belongs]
      have same : (hunt (startEvent t s)).coc.state = s.coc.state := rfl
      rw [same]
      rcases state with h | h | h <;> rw [h]
    have read := (receive_hears (s := startEvent t s) 3 heard rfl).trans
      ((originFrame_heard (s := s) (originRefuse f) heard length _).trans
        (refused.trans (failPath_new (s := hunt (startEvent t s)) path new alone)))
    exact ⟨_, exec_unnoticed rfl r read ⟨rfl, rfl, rfl, rfl, rfl, rfl⟩,
      ⟨rfl, rfl, rfl, rfl, rfl, rfl, rfl, rfl, rfl⟩, rfl⟩

/-! ## The search deadline (3.7) -/

/-- R53: the search of a record on a PEER path without a lane fails. -/
theorem searchFails_peer {s : State} {st : Station} (path : s.coc.onPeer st) :
    ∃ w x y, searchFails s =
      { s with
        band := (handOver (releaseFrame st s.coc.tag .abandon) s).band,
        counters := (handOver (releaseFrame st s.coc.tag .abandon) s).counters,
        coc :=
          { s.coc.pathless with
            searchDeadline := none, retryTime := none, failedUntil := some (s.now + failedDisplay), state := .failed },
        csw := w, out := x, lamp := y } ∧ y.requested = .fail ∧
      (s.csw.speaker.overlay ≠ some .ident → w.players.s.prompt = some .callFailed) := by
  have told : releaseUplink .abandon s =
      { s with
        band := (handOver (releaseFrame st s.coc.tag .abandon) s).band,
        counters := (handOver (releaseFrame st s.coc.tag .abandon) s).counters } :=
    (releaseUplink_peer .abandon (Origin.onPeer_peer path)).trans (handOver_form _ s)
  have kept : withdrawOwn (releaseUplink .abandon s) = releaseUplink .abandon s := by
    rw [told]
    exact if_neg fun h => Bool.false_ne_true ((onLocalPath_onPeer path).symm.trans h.2)
  have dropped : dropLane false (withdrawOwn (releaseUplink .abandon s)) =
      { s with
        band := (handOver (releaseFrame st s.coc.tag .abandon) s).band,
        counters := (handOver (releaseFrame st s.coc.tag .abandon) s).counters, csw := s.csw.without .origin } := by
    rw [kept, told]
    exact dropLane_none false (Origin.onPeer_lane path)
  obtain ⟨w, x, asked, plays⟩ := askPrompt_spec .callFailed
    { s with
      band := (handOver (releaseFrame st s.coc.tag .abandon) s).band,
      counters := (handOver (releaseFrame st s.coc.tag .abandon) s).counters, csw := s.csw.without .origin,
      coc :=
        { s.coc.pathless with
          searchDeadline := none, retryTime := none, failedUntil := some (s.now + failedDisplay) } }
  have shown := (congrArg (enterOrigin .failed) asked).trans (enterOrigin_eq _ _)
  refine ⟨w, x, _, Eq.trans ?_ shown, State.lampFor_requested _ _, fun free => ?_⟩
  · unfold searchFails
    dsimp only
    rw [dropped]
    rfl
  · refine congrArg Player.prompt (plays ?_)
    rwa [show (s.csw.without .origin).speaker.overlay = s.csw.speaker.overlay from Slot.clearOwned_overlay _ _]

/-- R54: the record enters IDLE. -/
theorem enterIdle_eq (s : State) :
    enterIdle s =
      { s with
        coc := { s.coc.pathless with searchDeadline := none, retryTime := none, failedUntil := none, state := .idle },
        lamp := s.lampFor .dark } := rfl

/-- Settles O34. -/
theorem searchFailsAndIsShown : Obligations.SearchFailsAndIsShown := by
  unfold Obligations.SearchFailsAndIsShown
  intro t d s r
  refine ⟨fun st path state deadline due => ?_, fun state deadline due => ?_⟩
  · obtain ⟨w, x, y, failed, fail, plays⟩ := searchFails_peer (s := startEvent t s) path
    have searching : s.coc.state.searching = true := by rcases state with h | h | h | h <;> rw [h] <;> rfl
    have reached : searchReached (startEvent t s) = searchFails (startEvent t s) :=
      if_pos ⟨searching, startEvent_due deadline due⟩
    have run := reached.trans failed
    obtain ⟨band, _⟩ := handOver_congr (releaseFrame st s.coc.tag .abandon) (u := startEvent t s) (s := s) rfl rfl rfl
    exact ⟨_, exec_unnoticed (op := searchReached) rfl r run ⟨rfl, rfl, rfl, handOver_dupFault _ _, rfl, rfl⟩,
      rfl, rfl, rfl, rfl, rfl, fail, band, plays⟩
  · have run : failedReached (startEvent t s) =
        enterIdle ((startEvent t s).updCoc fun c => { c with endReason := .failed }) :=
      if_pos ⟨state, startEvent_due deadline due⟩
    rw [enterIdle_eq] at run
    exact ⟨_, exec_local rfl r run, rfl, rfl, rfl, rfl, rfl, rfl, rfl, State.lampFor_requested _ _⟩

/-! ## Grants and probes (3.4) -/

/-- R41, step 4: the granted lane is taken and probed. -/
theorem probeLane_eq (l : Lane) (m : Mod) (s : State) :
    ∃ x y, probeLane l m s =
      { s with
        lanes := s.lanes.set l x, engines := s.engines.set .e0 y, lamp := s.lampFor .seek,
        coc :=
          { s.coc.settled with
            path := s.coc.path.map fun p => { p with lane := some l, module := some m }, state := .probing } } ∧
      x.occupancy = .own ∧ x.owner = some .origin ∧
      Started .origin l (seedOf s.own s.coc.tag.toNat) true true s.now y := by
  obtain ⟨x, taken, own, owner⟩ := takeLane_eq l .origin s
  obtain ⟨y, started, engine⟩ := startEngine_eq .origin l (seedOf s.own s.coc.tag.toNat) true true
    { s with
      lanes := s.lanes.set l x, lamp := s.lampFor .seek,
      coc :=
        { s.coc.settled with
          path := s.coc.path.map fun p => { p with lane := some l, module := some m }, state := .probing } }
  refine ⟨x, y, Eq.trans ?_ started, own, owner, engine⟩
  unfold probeLane
  dsimp only
  rw [taken]
  rfl

/-- R41: a GRANT of a NEW claim for a lane that may be taken. -/
theorem takeGrant_new {s : State} (l : Lane) (m : Mod) (new : s.coc.claimKind = .new) (own : s.own ≠ 0)
    (occupancy : (s.lane l).occupancy ≠ .own) (owner : (s.lane l).owner = none)
    (quarantine : (s.lane l).quarantineUntil = none) : takeGrant (laneNumber l) (modCode m) 0 s = probeLane l m s := by
  rw [State.lane] at occupancy owner quarantine
  have may : originMayTake l s = true := by simp [originMayTake, own, occupancy, owner, quarantine]
  unfold takeGrant
  rw [laneOfNumber_laneNumber, modOfCode_modCode, new]
  dsimp only
  rw [may]
  rfl

/-- Settles O35. -/
theorem grantIsProbed : Obligations.GrantIsProbed := by
  unfold Obligations.GrantIsProbed
  intro t f l m s r heard length state path new tag lane module flag occupancy owner quarantine
  have own : s.own ≠ 0 := fun zero => heard.1 (BitVec.eq_of_toNat_eq (heard.2.1.trans zero))
  obtain ⟨k, path'⟩ := path
  have belongs : (hunt (startEvent t s)).belongs f.sender.toNat (octetAt f.payload 0) = true := by
    refine belongs_true ?_ (Origin.onPeer_peer ⟨k, path'⟩) tag
    show s.coc.state.awaitsUplink = true
    rcases state with h | h <;> rw [h] <;> rfl
  have granted : originGrant f (hunt (startEvent t s)) = takeGrant (laneNumber l) (modCode m) 0 (hunt (startEvent t s)) := by
    unfold originGrant ownGrant
    dsimp only
    rw [if_pos belongs, lane, module, flag]
    have same : (hunt (startEvent t s)).coc.state = s.coc.state := rfl
    rw [same]
    rcases state with h | h <;> rw [h]
  obtain ⟨x, y, probed, own', owner', engine⟩ := probeLane_eq l m (hunt (startEvent t s))
  have read := (receive_hears (s := startEvent t s) 1 heard rfl).trans
    ((originFrame_heard (s := s) (originGrant f) heard length _).trans
      (granted.trans ((takeGrant_new (s := hunt (startEvent t s)) l m new own occupancy owner quarantine).trans probed)))
  refine ⟨_, exec_unnoticed rfl r read ⟨rfl, rfl, rfl, rfl, rfl, rfl⟩, ?_, rfl, ⟨some m, ?_⟩, rfl, rfl, rfl, ?_, ?_,
    engine.user, engine.lane, engine.generator, engine.genSeed, engine.genStart, engine.checker, engine.checkStart⟩
  · simp only [State.lane, PerLane.get_set_self]; rfl
  · show Option.map _ s.coc.path = _
    rw [path']; rfl
  · simp only [State.lane, PerLane.get_set_self]; exact own'
  · simp only [State.lane, PerLane.get_set_self]; exact owner'

/-- R39, R40: what a WAIT notes. -/
def Origin.toldWait (c : Origin) (position : Nat) (now : Time) : Origin :=
  { c with queuePos := some position, silenceDeadline := some (now + silenceTime), answerDeadline := none }

/-- R39: a WAIT in CLAIMING queues the record. -/
theorem originWait_claiming {f : Rx} {s : State} (belongs : s.belongs f.sender.toNat (octetAt f.payload 0) = true)
    (claiming : s.coc.state = .claiming) :
    originWait f s = enterOrigin .queued (s.updCoc fun c => c.toldWait (octAt f.payload 1) s.now) := by
  unfold originWait
  rw [if_pos belongs]
  simp only [claiming]
  rfl

/-- R40: a WAIT in QUEUED is noted. -/
theorem originWait_queued {f : Rx} {s : State} (belongs : s.belongs f.sender.toNat (octetAt f.payload 0) = true)
    (queued : s.coc.state = .queued) :
    originWait f s = s.updCoc fun c => c.toldWait (octAt f.payload 1) s.now := by
  unfold originWait
  rw [if_pos belongs]
  simp only [queued]
  rfl

/-- R46: what a stage notes. -/
def Origin.toldStage (c : Origin) (st : Stage) (code : Code) : Origin :=
  { c with stage := some st, network := some code, answered := c.answered || st == .answered }

/-- R46: a stage that is only noted. -/
theorem originStage_noted {st : Stage} (code : Code) {s : State}
    (state : s.coc.state = .connected ∨ (s.coc.state = .dialing ∧ (st = .dialing ∨ st = .reselecting))) :
    originStage st code s = s.updCoc fun c => c.toldStage st code := by
  unfold originStage
  rcases state with connected | ⟨dialing, rfl | rfl⟩
  · simp only [connected]; rfl
  · simp only [dialing]; rfl
  · simp only [dialing]; rfl

/-- R46: ANSWERED in DIALING connects the call, with the prompt stopped and the lamp LIT. -/
theorem originStage_answered (code : Code) {s : State} (dialing : s.coc.state = .dialing) :
    ∃ w x, originStage .answered code s =
      { s with coc := { s.coc.toldStage .answered code with state := .connected }, csw := w, out := x,
               lamp := s.lampFor .lit } ∧ (w.players.get .s).state = .idle := by
  obtain ⟨w, x, stopped, idle⟩ := stopPrompt_any .s
    (s.updCoc fun c => { c.toldStage .answered code with state := .connected })
  refine ⟨w, x, Eq.trans ?_ (congrArg (requestLamp .lit) stopped), idle⟩
  unfold originStage
  simp only [dialing]
  rfl

/-- Settles O36. -/
theorem waitAndProgressAreNoted : Obligations.WaitAndProgressAreNoted := by
  unfold Obligations.WaitAndProgressAreNoted
  refine ⟨fun t f s r heard length peer tag state => ?_, fun t f st s r heard length peer tag stage => ?_⟩
  · have awaits : s.coc.state.awaitsUplink = true := by rcases state with h | h <;> rw [h] <;> rfl
    have belongs : (hunt (startEvent t s)).belongs f.sender.toNat (octetAt f.payload 0) = true :=
      belongs_true awaits peer tag
    have read {v : State} (waits : originWait f (hunt (startEvent t s)) = v) :=
      (receive_hears (s := startEvent t s) 2 heard rfl).trans
        ((originFrame_heard (s := s) (originWait f) heard length _).trans waits)
    rcases state with claiming | queued
    · exact ⟨_, exec_unnoticed rfl r (read (originWait_claiming belongs claiming)) ⟨rfl, rfl, rfl, rfl, rfl, rfl⟩, rfl, rfl,
        fun _ => State.lampFor_requested _ _⟩
    · refine ⟨_, exec_unnoticed rfl r (read (originWait_queued belongs queued)) ⟨rfl, rfl, rfl, rfl, rfl, rfl⟩, rfl, ?_,
        fun claiming => ?_⟩
      · rw [← queued]; rfl
      · rw [queued] at claiming; cases claiming
  · have told (awaits : s.coc.state.awaitsUplink = true) {v : State}
        (taken : originStage st (be24At f.payload 2) (hunt (startEvent t s)) = v) :
        receive 5 f (startEvent t s) = v := by
      have belongs : (hunt (startEvent t s)).belongs f.sender.toNat (octetAt f.payload 0) = true :=
        belongs_true awaits peer tag
      refine (receive_hears (s := startEvent t s) 5 heard rfl).trans
        ((originFrame_heard (s := s) (originProgress f) heard length _).trans (Eq.trans ?_ taken))
      unfold originProgress
      rw [if_pos belongs, stage, stageOf_stageCode]
    refine ⟨fun state => ?_, fun dialing answered => ?_⟩
    · have awaits : s.coc.state.awaitsUplink = true := by rcases state with h | ⟨h, _⟩ <;> rw [h] <;> rfl
      exact exec_unnoticed rfl r (told awaits (originStage_noted _ state)) ⟨rfl, rfl, rfl, rfl, rfl, rfl⟩
    · subst answered
      have awaits : s.coc.state.awaitsUplink = true := by rw [dialing]; rfl
      obtain ⟨w, x, answers, idle⟩ := originStage_answered (be24At f.payload 2) (s := hunt (startEvent t s)) dialing
      exact ⟨_, exec_unnoticed rfl r (told awaits answers) ⟨rfl, rfl, rfl, rfl, rfl, rfl⟩, rfl,
        State.lampFor_requested _ _, idle⟩

/-! ## The end of the call (3.5, 3.7) -/

/-- R56: a record gives up its lane, OWN, without a quarantine. -/
theorem dropLane_own {s : State} {l : Lane} (lane : s.coc.lane = some l) (occupancy : (s.lane l).occupancy = .own)
    (owner : (s.lane l).owner = some .origin) :
    ∃ g a b e, dropLane false s =
      { s with
        lanes := s.lanes.set l ((s.lane l).released s.now g),
        csw := { s.csw.without .origin with gapA := a, gapB := b }, engines := s.engines.set .e0 e,
        coc := { s.coc with path := s.coc.path.map fun p => { p with lane := none } } } ∧
      ((s.engine .e0).lane = some l → e = (s.engine .e0).stopped) := by
  obtain ⟨x, a, b, e, ns, released, by_⟩ := releaseLane_eq l .origin { s with csw := s.csw.without .origin }
  obtain ⟨rfl, g, rfl⟩ := by_.own occupancy owner
  refine ⟨g, a, b, e, ?_, by_.stopped owner⟩
  have held : (clearRoutes .origin s).coc.lane = some l := lane
  unfold dropLane
  dsimp only
  rw [held]
  dsimp only
  rw [if_neg Bool.false_ne_true, clearRoutes_eq, released, List.append_nil]
  rfl

/-- Settles O37. -/
theorem farClearEndsTheCall : Obligations.FarClearEndsTheCall := by
  unfold Obligations.FarClearEndsTheCall
  intro t f l s r heard length state path tag reason occupancy owner
  have awaits : s.coc.state.awaitsUplink = true := by rcases state with h | h <;> rw [h] <;> rfl
  have belongs : (hunt (startEvent t s)).belongs f.sender.toNat (octetAt f.payload 0) = true :=
    belongs_true awaits (Origin.onLane_peer path) tag
  have ends : deliverRelease f (hunt (startEvent t s)) = pathEnds .farClear (hunt (startEvent t s)) := by
    obtain ⟨target, _, sender, _⟩ := heard
    unfold deliverRelease
    have farClear : releaseOf 0 = some .farClear := rfl
    rw [if_neg (not_not.mpr length), reason, farClear]
    dsimp only
    unfold originRelease ownRelease
    have same : (hunt (startEvent t s)).coc.state = s.coc.state := rfl
    rw [if_neg (not_or.mpr ⟨target, sender⟩), if_pos belongs, same]
    rcases state with h | h <;> rw [h]
  obtain ⟨g, a, b, e, dropped, _⟩ := dropLane_own (s := hunt (startEvent t s)) (Origin.onLane_lane path) occupancy owner
  have idle : pathEnds .farClear (hunt (startEvent t s)) =
      enterIdle ((dropLane false (hunt (startEvent t s))).updCoc fun c => { c with endReason := .farClear }) := rfl
  rw [dropped, enterIdle_eq] at idle
  have read := (receive_hears (s := startEvent t s) 6 heard rfl).trans (ends.trans idle)
  refine ⟨_, exec_unnoticed rfl r read ⟨rfl, rfl, rfl, rfl, rfl, rfl⟩, ?_, rfl, rfl, rfl, rfl, rfl, rfl,
    State.lampFor_requested _ _, ?_, ?_, ?_, ?_, ?_⟩
  · simp only [State.lane, State.updCoc, PerLane.get_set_self]; rfl
  · simp only [State.lane, State.updCoc, PerLane.get_set_self]; rfl
  · simp only [State.lane, State.updCoc, PerLane.get_set_self]; rfl
  · simp only [State.lane, State.updCoc, PerLane.get_set_self]; rfl
  · exact Switch.without_owner .origin s.csw .speaker
  · exact Switch.without_owner .origin s.csw (.lane l)

end Sys2Proof.Machine

/-! # Radio Module Controller (06) -/

namespace Sys2Proof.Machine

/-! ## A module and the orders on its link -/

/-- A state in which only the module of a position and the outputs have changed. -/
def State.withMod (s : State) (m : Mod) (r : Module) (out : List Output) : State :=
  { s with modules := s.modules.set m r, out := out }

/-- R101: the module with an order in flight. -/
def Module.ordered (r : Module) (k : OrderKind) (code : Code) (now : Time) : Module :=
  { r with inFlight := some { kind := k, deadline := now + orderTime k, code := code } }

/-- R108: the module as it scans. -/
def Module.scans (r : Module) (st : ModuleState) (now : Time) : Module :=
  ({ r with state := st, lastScan := some now, rescanDue := none } : Module).ordered .scan 0 now

/-- R110: the module as it selects a network. -/
def Module.selects (r : Module) (code : Code) (now : Time) : Module :=
  ({ r with state := .selecting, rescanDue := none } : Module).ordered .select code now

/-- R115: the module as it dials. -/
def Module.dials (r : Module) (now : Time) : Module :=
  ({ r with state := .dialing, callInProgress := true, rescanDue := none } : Module).ordered .dial 0 now

/-- R102: the module as it hangs up. -/
def Module.hangsUp (r : Module) (now : Time) : Module :=
  ({ r with state := .hangingUp, pendingOrder := none, progressDeadline := none, rescanDue := none } : Module).ordered
    .hangup 0 now

/-- R101: the order in flight of a kind. -/
theorem Module.flying_iff {r : Module} {k : OrderKind} : r.flying k = true ↔ ∃ o, r.inFlight = some o ∧ o.kind = k := by
  unfold Module.flying; cases r.inFlight <;> simp

section
variable (s : State) (m : Mod) (r : Module) (out : List Output)

theorem State.withMod_mod : (s.withMod m r out).mod m = r := PerMod.get_set_self _ _ _
theorem State.withMod_withMod (x : Module) (o : List Output) : (s.withMod m r out).withMod m x o = s.withMod m x o := by
  simp only [State.withMod, PerMod.set_set]
theorem State.withMod_self : s.withMod m (s.mod m) s.out = s := by
  show { s with modules := s.modules.set m (s.modules.get m) } = s
  rw [PerMod.set_get_self]
theorem State.updMod_eq (f : Module → Module) : s.updMod m f = s.withMod m (f (s.mod m)) s.out := rfl
theorem State.updMod_withMod (f : Module → Module) : (s.withMod m r out).updMod m f = s.withMod m (f r) out := by
  rw [State.updMod_eq, State.withMod_mod, State.withMod_withMod]; rfl

/-! Each operation on a module, from a state in which only that module and the outputs have changed. -/

theorem sendOrder_withMod (k : OrderKind) (code : Code) :
    sendOrder m k code (s.withMod m r out) = s.withMod m (r.ordered k code s.now) (out ++ [.order m k code]) := by
  unfold sendOrder; rw [State.updMod_withMod]; rfl
theorem startScan_withMod (st : ModuleState) :
    startScan m st (s.withMod m r out) = s.withMod m (r.scans st s.now) (out ++ [.order m .scan 0]) := by
  rw [startScan, State.updMod_withMod, sendOrder_withMod]; rfl
theorem startSelect_withMod (code : Code) :
    startSelect m code (s.withMod m r out) = s.withMod m (r.selects code s.now) (out ++ [.order m .select code]) := by
  rw [startSelect, State.updMod_withMod, sendOrder_withMod]; rfl
theorem startDial_withMod :
    startDial m (s.withMod m r out) = s.withMod m (r.dials s.now) (out ++ [.order m .dial 0]) := by
  rw [startDial, State.updMod_withMod, sendOrder_withMod]; rfl
theorem orderHangup_withMod :
    orderHangup m (s.withMod m r out) = s.withMod m (r.hangsUp s.now) (out ++ [.order m .hangup 0]) := by
  rw [orderHangup, State.updMod_withMod, sendOrder_withMod]; rfl
theorem landOrder_withMod : landOrder m (s.withMod m r out) = s.withMod m { r with inFlight := none } out :=
  State.updMod_withMod _ _ _ _ _

/-! ### Settling (R108, R109) -/

variable {s m r out}

/-- R109: a module that cannot settle stays. -/
theorem settle_not (not : r.canSettle = false) : settle m (s.withMod m r out) = s.withMod m r out := by
  unfold settle; dsimp only; rw [State.withMod_mod, not]; rfl

/-- R109, R118: a module in a carriage does not settle. -/
theorem settle_linked (link : r.link = true) : settle m (s.withMod m r out) = s.withMod m r out :=
  settle_not (by unfold Module.canSettle; rw [link]; simp)

/-- R109, cases 2 and 3: the module selects. -/
theorem settle_selects {c : Code} (can : r.canSettle = true) (which : settleCase r.table r.selected = .select c) :
    settle m (s.withMod m r out) = s.withMod m (r.selects c s.now) (out ++ [.order m .select c]) := by
  unfold settle; dsimp only; rw [State.withMod_mod, can, which]; exact startSelect_withMod _ _ _ _ _

/-- R109, case 4: NO-SERVICE is entered. -/
theorem settle_noService (can : r.canSettle = true) (which : settleCase r.table r.selected = .noService)
    (state : r.state ≠ .noService) :
    settle m (s.withMod m r out) =
      s.withMod m { r with state := .noService, selected := none, rescanDue := some (s.now + rescanTime) } out := by
  unfold settle; dsimp only; rw [State.withMod_mod, can, which]
  dsimp only
  rw [if_pos rfl, enterNoService, State.updMod_withMod, if_neg state]; rfl

/-- R108: the refresh scan is not due. -/
theorem refreshCheck_early (early : ∀ d, r.lastScan = some d → s.now < d + ms 300000) :
    refreshCheck m (s.withMod m r out) = s.withMod m r out := by
  unfold refreshCheck
  dsimp only
  rw [State.withMod_mod]
  refine if_neg fun ⟨_, _, _, _, due⟩ => ?_
  cases last : r.lastScan with
  | none => rw [last] at due; cases due
  | some d =>
    rw [last] at due
    exact absurd (early d last) (Nat.not_lt.mpr (of_decide_eq_true due))

/-- R109, case 1: READY is entered. -/
theorem settle_ready (can : r.canSettle = true) (which : settleCase r.table r.selected = .keep) (state : r.state ≠ .ready)
    (early : ∀ d, r.lastScan = some d → s.now < d + ms 300000) :
    settle m (s.withMod m r out) = s.withMod m { r with state := .ready, rescanDue := none } out := by
  unfold settle; dsimp only; rw [State.withMod_mod, can, which]
  dsimp only
  rw [if_pos rfl, enterReady, State.withMod_mod, if_neg state, State.updMod_withMod]
  exact refreshCheck_early early

/-- R109, case 1: the selected network is kept. -/
theorem settleCase_keep {t : List Net} {c : Code} (usable : codeUsable t c = true)
    (best : betterNet t c (qualityOf t c) = none) : settleCase t (some c) = .keep := by
  unfold settleCase; dsimp only; rw [usable, best]; rfl

/-- R109, cases 3 and 4: without a selected network the first usable one is selected. -/
theorem settleCase_select {t : List Net} {c : Code} (first : firstUsable t = some c) : settleCase t none = .select c := by
  unfold settleCase; dsimp only; rw [first]
theorem settleCase_noService {t : List Net} (first : firstUsable t = none) : settleCase t none = .noService := by
  unfold settleCase; dsimp only; rw [first]

end

/-- R109: a module that is powered and started, without a carriage, an order in flight or a pending one. -/
theorem Module.canSettle_of {r : Module} (power : r.power = true) (state : r.state ≠ .powering) (link : r.link = false)
    (flight : r.inFlight = none) (pending : r.pendingOrder = none) : r.canSettle = true := by
  unfold Module.canSettle; rw [power, link, flight, pending]; simpa using state

/-! ## Reports and timeouts (6.3) -/

/-- R99, R103: a report of a powered link clears the timeouts, then acts. -/
theorem onReport_powered {m : Mod} {s : State} (act : State → State) (power : (s.mod m).power = true) :
    onReport m act s = act (s.withMod m { s.mod m with timeouts := 0 } s.out) := by
  unfold onReport; rw [if_pos power]; rfl

/-- R104: the first and second timeouts of an order. -/
theorem orderTimesOut_again {m : Mod} {k : OrderKind} {s : State} (act : State → State) {o : OrderInFlight}
    (flight : (s.mod m).inFlight = some o) (kind : o.kind = k) (due : o.deadline ≤ s.now) (few : (s.mod m).timeouts < 2) :
    orderTimesOut m k act s = act (s.withMod m { s.mod m with timeouts := (s.mod m).timeouts + 1 } s.out) := by
  have due' : orderDue m k s = true := by
    unfold orderDue; rw [flight]; exact Bool.and_eq_true_iff.mpr ⟨by simpa using kind, decide_eq_true due⟩
  unfold orderTimesOut
  rw [if_pos due']
  dsimp only
  rw [State.updMod_eq, State.withMod_mod]
  exact if_neg (by dsimp only; omega)

/-- R113: an event that changes one module, which it does not make grantable. -/
theorem event_withMod {t : Time} {op : State → State} {s : State} {m : Mod} {r : Module} {out : List Output}
    (reset : s.inReset = false) (run : op (startEvent t s) = (startEvent t s).withMod m r out)
    (not : (s.mod m).grantable = false → r.grantable = false) :
    event t op s = offerSync (startEvent t s) { startEvent t s with modules := s.modules.set m r, out := out } :=
  event_sync reset run rfl (freedNotices_set (s0 := startEvent t s) (m := m) (r := r) rfl not)

/-- R59: a module at rest, and in no carriage, is grantable. -/
theorem Module.grantable_of_state {r : Module} (ready : r.state ≠ .ready) (refreshing : r.state ≠ .refreshing) :
    r.grantable = false := by
  have : r.resting = false := by simpa [Module.resting] using ⟨ready, refreshing⟩
  unfold Module.grantable; rw [this]; simp
theorem Module.grantable_of_link {r : Module} (link : r.link = true) : r.grantable = false := by
  unfold Module.grantable; rw [link]; simp

/-- R101: without a pending order none is sent. -/
theorem sendPending_none {m : Mod} {s : State} {r : Module} {out : List Output} (none : r.pendingOrder = none) :
    sendPending m (s.withMod m r out) = s.withMod m r out := by
  unfold sendPending
  rw [State.withMod_mod, none]
  split <;> rfl

/-- R110: a SELECT of a module in no carriage has failed. -/
theorem selectFails_idle {m : Mod} {s : State} {r : Module} {out : List Output} (code : Code) (link : r.link = false) :
    selectFails m code (s.withMod m r out) =
      settle m (s.withMod m
        { r with selected := none, table := penaliseNet r.table code (s.now + penaltyTime) } out) := by
  unfold selectFails penalise
  dsimp only
  rw [State.updMod_withMod, State.withMod_mod, if_neg (by rw [link]; decide), State.updMod_withMod]
  rfl

/-- R114: an ABORT of a module in a carriage has ended, with nothing pending. -/
theorem abortEnds_linked {m : Mod} {s : State} {r : Module} {out : List Output} (pending : r.pendingOrder = none)
    (link : r.link = true) :
    abortEnds m (s.withMod m r out) = s.withMod m { r with inFlight := none, state := .ready } out := by
  unfold abortEnds
  dsimp only
  rw [landOrder_withMod, State.withMod_mod]
  dsimp only
  rw [if_neg (by rw [pending]; decide), if_pos link, State.updMod_withMod]

/-- R104: a SELECT of a module in no carriage has timed out. -/
theorem selectTimesOut_idle {m : Mod} {s : State} {r : Module} {out : List Output} {o : OrderInFlight}
    (flight : r.inFlight = some o) (link : r.link = false) :
    selectTimesOut m (s.withMod m r out) =
      settle m (s.withMod m
        { r with inFlight := none, selected := none, table := penaliseNet r.table o.code (s.now + penaltyTime) } out) := by
  unfold selectTimesOut
  rw [State.withMod_mod, flight]
  dsimp only
  rw [landOrder_withMod, selectFails_idle _ (by exact link)]

/-- R104: a SCAN has timed out, with nothing pending. -/
theorem scanTimesOut_none {m : Mod} {s : State} {r : Module} {out : List Output} (pending : r.pendingOrder = none) :
    scanTimesOut m (s.withMod m r out) =
      s.withMod m
        { r with
          inFlight := none, table := [], selected := none, state := .noService,
          rescanDue := some (s.now + rescanTime) } out := by
  unfold scanTimesOut
  rw [landOrder_withMod, State.updMod_withMod]
  exact sendPending_none pending

/-- Settles O51: each kind of order by what its timeout brings about. -/
theorem orderTimeoutsBelowTheThird : Obligations.OrderTimeoutsBelowTheThird := by
  unfold Obligations.OrderTimeoutsBelowTheThird
  intro t m o s reset flight due few pending
  have times (k : OrderKind) (act : State → State) (kind : o.kind = k) :
      orderTimesOut m k act (startEvent t s) =
        act ((startEvent t s).withMod m { s.mod m with timeouts := (s.mod m).timeouts + 1 } []) :=
    orderTimesOut_again (s := startEvent t s) act flight kind due few
  refine ⟨fun kind => ?_, fun kind link power state unusable => ?_, fun kind => ?_, fun kind link => ?_⟩
  · exact congrArg _ (event_withMod reset ((times .scan _ kind).trans (scanTimesOut_none pending))
      fun _ => Module.grantable_of_state (by simp) (by simp))
  · refine congrArg _ (event_withMod reset ((times .select _ kind).trans ((selectTimesOut_idle (by exact flight) (by exact link)).trans ?_))
      fun _ => Module.grantable_of_state (by simp) (by simp))
    exact settle_noService (Module.canSettle_of power (ne_of_eq_of_ne state (by decide)) link rfl pending)
      (settleCase_noService unusable) (ne_of_eq_of_ne state (by decide))
  · refine congrArg _ (event_withMod reset ((times .dial _ kind).trans ((orderHangup_withMod _ _ _ _).trans ?_))
      fun _ => Module.grantable_of_state (by simp) (by simp))
    unfold Module.hangsUp Module.ordered
    rw [← pending]
    rfl
  · exact congrArg _ (event_withMod reset ((times .abort _ kind).trans (abortEnds_linked pending link))
      fun _ => Module.grantable_of_link link)

end Sys2Proof.Machine

/-! # The module link and what its reports bring about (06) -/

namespace Sys2Proof.Machine

/-! ## The receiver of a link (6.1) -/

/-- Octets heard one after another at the same moment. -/
def heardTogether (now : Time) (octets : List Octet) : List LinkOctet :=
  octets.map fun o => { heardAt := now, octet := o }

/-- R99: at the same moment nothing has stopped. -/
theorem LinkRx.rest_together (x : LinkRx) (now : Time) : x.rest (decide (now + linkGap < now)) = (x, []) := by
  rw [decide_eq_false (Nat.not_lt.mpr (Nat.le_add_right _ _))]
  cases x <;> rfl

/-- R99: the next octet at the same moment. -/
theorem linkEvents_next (x : LinkRx) (o : Octet) (rest : List Octet) (now later : Time) :
    linkEvents x now later (heardTogether now (o :: rest)) =
      (x.take o).2 ++ linkEvents (x.take o).1 now later (heardTogether now rest) := by
  show (x.rest _).2 ++ ((x.rest _).1.take o).2 ++ linkEvents (((x.rest _).1.take o).1) now later (heardTogether now rest) = _
  rw [LinkRx.rest_together]
  rfl

/-- R99: a hunting receiver passes everything before a start octet over. -/
theorem linkEvents_noise (noise rest : List Octet) (last now later : Time) (h : (170 : Octet) ∉ noise) (k : Octet) :
    linkEvents .hunting last later (heardTogether now (noise ++ 170 :: k :: rest)) =
      linkEvents (.length k) now later (heardTogether now rest) := by
  induction noise generalizing last with
  | nil =>
    have started : linkEvents .hunting last later (heardTogether now (170 :: k :: rest)) =
        linkEvents .kind now later (heardTogether now (k :: rest)) := rfl
    exact started.trans (linkEvents_next .kind k rest now later)
  | cons o noise ih =>
    have other : o ≠ 170 := fun e => h (by simp [e])
    have next := ih now fun e => h (List.mem_cons_of_mem o e)
    show linkEvents (if o = 170 then .kind else .hunting) now later (heardTogether now (noise ++ 170 :: k :: rest)) = _
    rw [if_neg other, next]

/-- R99: the octets of a payload are gathered while it is not complete. -/
theorem linkEvents_gathers (k : Octet) (need : Nat) (got p : List Octet) (now later : Time) (few : got.length + p.length < need) :
    linkEvents (.payload k need got) now later (heardTogether now p) =
      ((LinkRx.payload k need (got ++ p)).rest (decide (now + linkGap ≤ later))).2 := by
  induction p generalizing got with
  | nil => rw [List.append_nil]; rfl
  | cons o p ih =>
    simp only [List.length_cons] at few
    have next := ih (got ++ [o]) (by simp only [List.length_append, List.length_cons, List.length_nil]; omega)
    rw [List.append_assoc, List.singleton_append] at next
    have taken : (LinkRx.payload k need got).take o = (.payload k need (got ++ [o]), []) := if_pos (by omega)
    rw [linkEvents_next, taken, ← next]
    rfl

/-- R99: the last octet of a payload completes its message. -/
theorem linkEvents_completes (k : Octet) (got p : List Octet) (need : Nat) (now later : Time)
    (whole : got.length + p.length = need) (more : p ≠ []) :
    linkEvents (.payload k need got) now later (heardTogether now p) = [messageEvent k (got ++ p)] := by
  induction p generalizing got with
  | nil => exact absurd rfl more
  | cons o p ih =>
    simp only [List.length_cons] at whole
    rw [linkEvents_next]
    cases p with
    | nil =>
      simp only [List.length_nil] at whole
      have taken : (LinkRx.payload k need got).take o = (.hunting, [messageEvent k (got ++ [o])]) := if_neg (by omega)
      rw [taken]; rfl
    | cons x p =>
      simp only [List.length_cons] at whole
      have taken : (LinkRx.payload k need got).take o = (.payload k need (got ++ [o]), []) := if_pos (by omega)
      have next := ih (got ++ [o]) (by simp only [List.length_append, List.length_cons, List.length_nil]; omega)
        (List.cons_ne_nil x p)
      rw [List.append_assoc, List.singleton_append] at next
      rw [taken]
      exact next

/-- R99: a message that comes together is taken whole, whatever came before its start octet. -/
theorem linkEvents_message (noise p : List Octet) (kind : Octet) (last now : Time) (h : (170 : Octet) ∉ noise)
    (short : p.length < 256) :
    linkEvents .hunting last now (heardTogether now (noise ++ [170, kind, oct p.length] ++ p)) = [messageEvent kind p] := by
  rw [List.append_assoc]
  refine (linkEvents_noise noise (oct p.length :: p) last now now h kind).trans ?_
  have length : (oct p.length).toNat = p.length := (oct_toNat _).trans (Nat.mod_eq_of_lt short)
  rw [linkEvents_next]
  cases p with
  | nil => rfl
  | cons o p =>
    have notZero : oct (o :: p).length ≠ 0 := fun e => by rw [e] at length; simp at length
    have taken : (LinkRx.length kind).take (oct (o :: p).length) = (.payload kind (o :: p).length [], []) := by
      rw [LinkRx.take, if_neg notZero, length]
    rw [taken]
    exact linkEvents_completes kind [] (o :: p) _ now now (by simp) (List.cons_ne_nil o p)

/-- R99: a message that stops short for 20 ms is discarded. -/
theorem linkEvents_stops (p : List Octet) (kind n : Octet) (last now : Time) (short : p.length < n.toNat) :
    linkEvents .hunting last (now + ms 20) (heardTogether now ([170, kind, n] ++ p)) = [.discarded] := by
  refine (linkEvents_noise [] (n :: p) last now (now + ms 20) (by simp) kind).trans ?_
  have notZero : n ≠ 0 := fun e => by rw [e] at short; exact absurd short (Nat.not_lt_zero _)
  have taken : (LinkRx.length kind).take n = (.payload kind n.toNat [], []) := if_neg notZero
  rw [linkEvents_next, taken]
  refine (linkEvents_gathers kind n.toNat [] p now _ (by simpa using short)).trans ?_
  have stopped : decide (now + linkGap ≤ now + ms 20) = true := decide_eq_true (Nat.le_refl _)
  rw [stopped]
  rfl

/-! ## Messages and reports -/

/-- The three octets of a code, put together again. -/
theorem code_octets (c : BitVec 24) : c.extractLsb' 16 8 ++ c.extractLsb' 8 8 ++ c.extractLsb' 0 8 = c := by
  refine BitVec.eq_of_getLsbD_eq fun i h => ?_
  simp only [BitVec.getLsbD_append, BitVec.getLsbD_extractLsb']
  by_cases low : i < 8
  · simp [low]
  · by_cases middle : i - 8 < 8
    · simp [low, middle]; congr 1; omega
    · simp [low, middle]
      rw [show 16 + (i - 8 - 8) = i by omega, decide_eq_true (by omega), Bool.true_and]

/-- R107: the entries of a SCAN-LIST read back. -/
theorem scanEntries_octets (entries : List ScanEntry) : scanEntries (entries.map scanEntryOctets).flatten = entries := by
  induction entries with
  | nil => rfl
  | cons e rest ih =>
    show { code := e.code.extractLsb' 16 8 ++ e.code.extractLsb' 8 8 ++ e.code.extractLsb' 0 8, quality := e.quality,
           flags := e.flags } :: scanEntries (rest.map scanEntryOctets).flatten = e :: rest
    rw [code_octets, ih]

theorem scanEntries_length (entries : List ScanEntry) : (entries.map scanEntryOctets).flatten.length = 5 * entries.length := by
  induction entries with
  | nil => rfl
  | cons e rest ih =>
    rw [List.map_cons, List.flatten_cons, List.length_append, ih, List.length_cons]
    show 5 + _ = _
    omega

/-- R99: a well-formed report is read. -/
theorem messageEvent_read {kind : Octet} {p : List Octet} {r : Report} (read : readReport kind p = some r) :
    messageEvent kind p = .report r := by unfold messageEvent; rw [read]

/-- R99: a report reads back from its message. -/
theorem messageEvent_report (r : Report) (few : ∀ e, r = .scanList e → e.length ≤ 50) :
    messageEvent (reportPayload r).1 (reportPayload r).2 = .report r := by
  cases r with
  | scanList entries =>
    have count : (oct entries.length).toNat = entries.length :=
      (oct_toNat _).trans (Nat.mod_eq_of_lt (by have := few entries rfl; omega))
    have good : linkReport 17 (oct entries.length :: (entries.map scanEntryOctets).flatten) = true := by
      have rule (p : List Octet) : linkReport 17 p = (decide (1 ≤ p.length) && p.length == 1 + 5 * octAt p 0) := rfl
      have first : octAt (oct entries.length :: (entries.map scanEntryOctets).flatten) 0 = entries.length := count
      rw [rule, first, List.length_cons, scanEntries_length]
      simp; omega
    refine messageEvent_read ((if_pos good).trans ?_)
    show some (Report.scanList (scanEntries (entries.map scanEntryOctets).flatten)) = _
    rw [scanEntries_octets]
  | selected code result =>
    refine messageEvent_read ?_
    show some (Report.selected (code.extractLsb' 16 8 ++ code.extractLsb' 8 8 ++ code.extractLsb' 0 8) result) = _
    rw [code_octets]
  | ready | accepted | rejected | ringing | answered | ended | aborted | quality | fault => rfl

/-- R99: every well-formed report has a meaning. -/
theorem readReport_isSome {kind : Octet} {p : List Octet} (good : linkReport kind p = true) : ∃ r, readReport kind p = some r := by
  unfold readReport
  rw [if_pos good]
  unfold linkReport at good
  split at good
  any_goals exact ⟨_, rfl⟩
  cases good

/-- R99: a message is discarded when it is no well-formed report. -/
theorem messageEvent_discarded (kind : Octet) (p : List Octet) : messageEvent kind p = .discarded ↔ linkReport kind p = false := by
  cases good : linkReport kind p with
  | true =>
    obtain ⟨r, read⟩ := readReport_isSome good
    rw [messageEvent_read read]
    simp
  | false =>
    have unread : readReport kind p = none := if_neg (by rw [good]; decide)
    unfold messageEvent
    rw [unread]
    simp

/-! ## What a link brings about -/

/-- R99: the stream of a link, by its events. -/
theorem linkStream_eq {m : Mod} {octets : List LinkOctet} {s : State} {events : List LinkEvent}
    (h : linkEvents .hunting 0 s.now (octets.filter fun o => decide ((s.mod m).poweredAt ≤ o.heardAt)) = events) :
    linkStream m octets s = events.foldl (takeLink m) s := by rw [← h]; rfl

/-- R99: a link without power is not read. -/
theorem takeLink_unpowered {m : Mod} {s : State} (e : LinkEvent) (off : (s.mod m).power = false) : takeLink m s e = s := by
  have not : ¬ (s.mod m).power = true := fun on => Bool.false_ne_true (off.symm.trans on)
  cases e with
  | report r => exact if_neg not
  | discarded => exact if_neg not

theorem foldl_takeLink_unpowered {m : Mod} {s : State} (events : List LinkEvent) (off : (s.mod m).power = false) :
    events.foldl (takeLink m) s = s := by
  induction events with
  | nil => rfl
  | cons e rest ih => rw [List.foldl_cons, takeLink_unpowered e off, ih]

/-- R4: what the builder reads of a module that stands in for another. -/
theorem offerInput_set {p : PerMod Module} {m : Mod} {r : Module} (same : r.offerInput = (p.get m).offerInput) :
    (p.set m r).a.offerInput = p.a.offerInput ∧ (p.set m r).b.offerInput = p.b.offerInput := by
  cases m with
  | a => exact ⟨same, rfl⟩
  | b => exact ⟨rfl, same⟩

/-- R113: an event that changes one module, in nothing that the builder reads. -/
theorem event_withMod_unnoticed {t : Time} {op : State → State} {s : State} {m : Mod} {r : Module}
    (reset : s.inReset = false) (run : op (startEvent t s) = (startEvent t s).withMod m r [])
    (same : r.offerInput = (s.mod m).offerInput) (grantable : r.grantable = (s.mod m).grantable) :
    event t op s = { startEvent t s with modules := s.modules.set m r } := by
  obtain ⟨a, b⟩ := offerInput_set (p := s.modules) same
  rw [event_withMod reset run fun not => grantable.trans not]
  exact offerSync_of_fields rfl rfl rfl a b rfl

/-- Operations that make the same of a state make the same event. -/
theorem event_congr {t : Time} {op op' : State → State} {s : State} (h : op (startEvent t s) = op' (startEvent t s)) :
    event t op s = event t op' s := by
  unfold event noting
  dsimp only
  rw [h]

section
variable (s : State) (m : Mod)

theorem startScan_eq (st : ModuleState) :
    startScan m st s = s.withMod m ((s.mod m).scans st s.now) (s.out ++ [.order m .scan 0]) := by
  have run := startScan_withMod s m (s.mod m) s.out st
  rwa [State.withMod_self] at run
theorem orderHangup_eq : orderHangup m s = s.withMod m ((s.mod m).hangsUp s.now) (s.out ++ [.order m .hangup 0]) := by
  have run := orderHangup_withMod s m (s.mod m) s.out
  rwa [State.withMod_self] at run
theorem startDial_eq : startDial m s = s.withMod m ((s.mod m).dials s.now) (s.out ++ [.order m .dial 0]) := by
  have run := startDial_withMod s m (s.mod m) s.out
  rwa [State.withMod_self] at run
theorem startSelect_eq (code : Code) :
    startSelect m code s = s.withMod m ((s.mod m).selects code s.now) (s.out ++ [.order m .select code]) := by
  have run := startSelect_withMod s m (s.mod m) s.out code
  rwa [State.withMod_self] at run

variable {s m} {r : Module} {out : List Output}

/-- R105: READY in POWERING begins the start-up scan. -/
theorem readyReport_powering (state : r.state = .powering) :
    readyReport m (s.withMod m r out) =
      s.withMod m (({ r with poweringDeadline := none, powerCycles := 0 } : Module).scans .scanning s.now)
        (out ++ [.order m .scan 0]) := by
  unfold readyReport
  rw [State.withMod_mod, if_pos state, State.updMod_withMod, startScan_withMod]

/-- R116: ACCEPTED ends the DIAL. -/
theorem acceptedReport_flying (dial : r.flying .dial = true) :
    acceptedReport m (s.withMod m r out) =
      s.withMod m { r with inFlight := none, progressDeadline := some (s.now + progressTime) } out := by
  unfold acceptedReport
  rw [State.withMod_mod, if_pos dial, State.updMod_withMod]
  rfl

/-- R112: QUALITY of the selected network of a module in a carriage. -/
theorem qualityReport_linked {c : Code} (q : Octet) (selected : r.selected = some c) (known : netOf r.table c ≠ none)
    (link : r.link = true) :
    qualityReport m q (s.withMod m r out) = s.withMod m { r with table := setQuality r.table c (min q.toNat 63) } out := by
  obtain ⟨n, net⟩ := Option.ne_none_iff_exists'.mp known
  have taken : qualityReport m q (s.withMod m r out) =
      settle m ((s.withMod m r out).updMod m fun r => { r with table := setQuality r.table c (min q.toNat 63) }) := by
    unfold qualityReport
    rw [State.withMod_mod, selected]
    dsimp only
    rw [net]
  rw [taken, State.updMod_withMod]
  exact settle_linked link

/-- R111: the end of a penalty of a module in a carriage. -/
theorem penaltyOver_linked {c : Code} {n : Net} {d : Time} (net : netOf r.table c = some n)
    (penalised : n.penalisedUntil = some d) (due : d ≤ s.now) (link : r.link = true) :
    penaltyOver m c (s.withMod m r out) =
      s.withMod m
        { r with table := r.table.map fun x => if x.code = c then { x with penalisedUntil := none } else x } out := by
  have due' : (s.withMod m r out).due n.penalisedUntil = true := by rw [penalised]; exact decide_eq_true due
  unfold penaltyOver
  rw [State.withMod_mod, net]
  dsimp only
  rw [if_pos due', State.updMod_withMod]
  exact settle_linked link

end

/-- R108: a refresh scan that is due. -/
theorem refreshCheck_due {m : Mod} {s : State} {d : Time} (state : (s.mod m).state = .ready) (link : (s.mod m).link = false)
    (flight : (s.mod m).inFlight = none) (supply : s.supply.state ≠ .low) (last : (s.mod m).lastScan = some d)
    (due : d + ms 300000 ≤ s.now) : refreshCheck m s = startScan m .refreshing s := by
  have due' : s.due ((s.mod m).lastScan.map (· + refreshTime)) = true := by rw [last]; exact decide_eq_true due
  exact if_pos ⟨state, link, flight, supply, due'⟩

/-- R102: a pending order is emptied by HANGUP. -/
theorem Module.hangsUp_eq (r : Module) (now : Time) :
    r.hangsUp now =
      { r with
        state := .hangingUp, pendingOrder := none, progressDeadline := none, rescanDue := none,
        inFlight := some { kind := .hangup, deadline := now + ms 5000, code := 0 } } := rfl

/-- Settles O46: the octets of a link, what they bring about, and the reports and times of a module one by one. -/
theorem moduleReportsAndTimes : Obligations.ModuleReportsAndTimes := by
  unfold Obligations.ModuleReportsAndTimes
  refine ⟨fun last now => ⟨fun noise p kind quiet short => linkEvents_message noise p kind last now quiet short,
    fun r few => ?_, messageEvent_discarded, fun kind n p short => linkEvents_stops p kind n last now short⟩,
    fun t m hunted message s reset => ?_, fun t m s reset => ?_⟩
  · have short : (reportPayload r).2.length < 256 := by
      cases r with
      | scanList entries =>
        show (_ :: (entries.map scanEntryOctets).flatten).length < 256
        rw [List.length_cons, scanEntries_length]
        have := few entries rfl
        omega
      | ready | selected | accepted | rejected | ringing | answered | ended | aborted | quality | fault => simp [reportPayload]
    exact (linkEvents_message [] _ _ last now (by simp) short).trans (congrArg (fun e => [e]) (messageEvent_report r few))
  · have read {events : List LinkEvent}
        (h : linkEvents .hunting 0 (max s.now t)
          ((hunted ++ message).filter fun o => decide ((s.mod m).poweredAt ≤ o.heardAt)) = events) :
        linkStream m (hunted ++ message) (startEvent t s) = events.foldl (takeLink m) (startEvent t s) :=
      linkStream_eq (s := startEvent t s) h
    have nothing (run : linkStream m (hunted ++ message) (startEvent t s) = startEvent t s) :
        event t (linkStream m (hunted ++ message)) s = startEvent t s :=
      event_unnoticed reset run ⟨rfl, rfl, rfl, rfl, rfl, rfl⟩
    refine ⟨fun power discarded => ?_, fun off => ?_, fun none => ?_, fun old => ?_, rfl, fun report heard => ?_⟩
    · have run : linkStream m (hunted ++ message) (startEvent t s) =
          (startEvent t s).withMod m { s.mod m with linkErrors := satInc (s.mod m).linkErrors } [] :=
        (read discarded).trans (if_pos power)
      have counted := event_withMod_unnoticed reset run rfl rfl
      exact ⟨congrArg _ counted, congrArg _ counted⟩
    · have unread := nothing ((read rfl).trans (foldl_takeLink_unpowered _ off))
      exact ⟨congrArg _ unread, congrArg _ unread⟩
    · exact congrArg _ (nothing (read none))
    · exact congrArg _ (nothing (linkStream_unread m _ _ old))
    · have taken : event t (linkStream m (hunted ++ message)) s = event t (onReport m (takeReport m report)) s :=
        event_congr (read heard)
      cases report <;> exact congrArg _ taken
  · have heard {act : State → State} {r : Module} {out : List Output} (power : (s.mod m).power = true)
        (acts : act ((startEvent t s).withMod m { s.mod m with timeouts := 0 } []) = (startEvent t s).withMod m r out) :
        onReport m act (startEvent t s) = (startEvent t s).withMod m r out :=
      (onReport_powered (s := startEvent t s) act power).trans acts
    refine ⟨fun power state => ?_, fun power dial => ?_, fun power abort pending link => ?_,
      fun c q power selected known link => ?_, fun d state rescan due => ?_, fun d state link flight supply last due => ?_,
      fun d state progress due => ?_, fun c n d net penalised due link => ?_⟩
    · exact congrArg _ (event_withMod reset (heard power (readyReport_powering state))
        fun _ => Module.grantable_of_state (by simp [Module.scans, Module.ordered]) (by simp [Module.scans, Module.ordered]))
    · exact congrArg _ (event_withMod reset (heard power (acceptedReport_flying dial)) id)
    · have ends : abortedReport m ((startEvent t s).withMod m { s.mod m with timeouts := 0 } []) =
          abortEnds m ((startEvent t s).withMod m { s.mod m with timeouts := 0 } []) :=
        if_pos (by rw [State.withMod_mod]; exact abort)
      exact congrArg _ (event_withMod reset (heard power (ends.trans (abortEnds_linked pending link)))
        fun _ => Module.grantable_of_link link)
    · exact congrArg _ (event_withMod reset (heard power (qualityReport_linked q (by exact selected) (by exact known) link))
        fun _ => Module.grantable_of_link link)
    · have run : rescanStarts m (startEvent t s) = startScan m .scanning (startEvent t s) :=
        if_pos ⟨state, startEvent_due rescan due⟩
      exact congrArg _ (event_withMod reset (run.trans (startScan_eq _ _ _))
        fun _ => Module.grantable_of_state (by simp [Module.scans, Module.ordered]) (by simp [Module.scans, Module.ordered]))
    · have run := refreshCheck_due (s := startEvent t s) state link flight supply last due
      refine congrArg _ (event_withMod reset (run.trans (startScan_eq _ _ _)) fun not => ?_)
      have before : (s.mod m).resting = true := by rw [Module.resting, state]; rfl
      rw [← not, Module.grantable, Module.grantable, before]
      rfl
    · have run : progressExpires m (startEvent t s) = orderHangup m (startEvent t s) :=
        if_pos ⟨state, startEvent_due progress due⟩
      exact congrArg _ (event_withMod reset (run.trans (orderHangup_eq _ _))
        fun _ => Module.grantable_of_state (by simp [Module.hangsUp, Module.ordered]) (by simp [Module.hangsUp, Module.ordered]))
    · have run := penaltyOver_linked (s := startEvent t s) (m := m) (r := s.mod m) (out := []) net penalised due link
      refine congrArg _ (event_withMod reset (Eq.trans ?_ run) fun _ => Module.grantable_of_link link)
      exact congrArg _ (State.withMod_self (startEvent t s) m).symm

end Sys2Proof.Machine

/-! # Scans, selections and the progress of a call (05, 5.2; 06, 6.5, 6.6) -/

namespace Sys2Proof.Machine

/-! ## Scans and selections -/

section
variable {m : Mod} {s : State} {r : Module} {out : List Output}

/-- R107: the SCAN-LIST of the SCAN in flight, for a module without a selection. -/
theorem scanListReport_flying {entries : List ScanEntry} (scan : r.flying .scan = true) (selected : r.selected = none) :
    scanListReport m entries (s.withMod m r out) =
      settle m (s.withMod m { r with inFlight := none, table := scanTable entries r.table } out) := by
  have ends : scanListReport m entries (s.withMod m r out) = scanEnds m entries (s.withMod m r out) :=
    if_pos (by rw [State.withMod_mod]; exact scan)
  have kept : ({ r with
      inFlight := none, table := scanTable entries r.table,
      selected := keptSelection (scanTable entries r.table) r.selected } : Module) =
      { r with inFlight := none, table := scanTable entries r.table } := by
    rw [selected]; cases r; cases selected; rfl
  rw [ends, scanEnds, landOrder_withMod, State.updMod_withMod]
  exact congrArg (fun x => settle m (s.withMod m x out)) kept

/-- R110, R115: SELECTED ok ends the SELECT in flight. -/
theorem selectEnds_ok {o : OrderInFlight} (flight : r.inFlight = some o) (select : o.kind = .select) :
    selectEnds m o.code true (s.withMod m r out) =
      selectSucceeds m o.code (s.withMod m { r with inFlight := none } out) := by
  unfold selectEnds
  rw [State.withMod_mod, flight]
  dsimp only
  rw [if_pos select, if_pos ⟨rfl, rfl⟩, landOrder_withMod]

/-- R115: the module of a carriage dials on the network it has selected. -/
theorem selectSucceeds_linked (code : Code) (link : r.link = true) :
    selectSucceeds m code (s.withMod m r out) =
      s.withMod m (({ r with selected := some code } : Module).dials s.now) (out ++ [.order m .dial 0]) := by
  unfold selectSucceeds
  dsimp only
  rw [State.updMod_withMod, State.withMod_mod, if_pos (by exact link)]
  exact startDial_withMod _ _ _ _

/-- R110: an idle module settles on the network it has selected. -/
theorem selectSucceeds_idle (code : Code) (link : r.link = false) :
    selectSucceeds m code (s.withMod m r out) = settle m (s.withMod m { r with selected := some code } out) := by
  unfold selectSucceeds
  dsimp only
  rw [State.updMod_withMod, State.withMod_mod, if_neg (by rw [link]; decide)]

/-- R109, R110: SELECTED ok brings an idle module that holds the best network to READY. -/
theorem selected_ready {o : OrderInFlight} (power : r.power = true) (state : r.state = .selecting) (link : r.link = false)
    (pending : r.pendingOrder = none) (flight : r.inFlight = some o) (select : o.kind = .select)
    (usable : codeUsable r.table o.code = true) (best : betterNet r.table o.code (qualityOf r.table o.code) = none)
    (early : ∀ d, r.lastScan = some d → s.now < d + ms 300000) :
    selectEnds m o.code true (s.withMod m r out) =
      s.withMod m { r with selected := some o.code, inFlight := none, state := .ready, rescanDue := none } out :=
  (selectEnds_ok flight select).trans ((selectSucceeds_idle _ (by exact link)).trans
    (settle_ready (Module.canSettle_of power (ne_of_eq_of_ne state (by decide)) link rfl pending)
      (settleCase_keep usable best) (ne_of_eq_of_ne state (by decide)) early))

end

/-- R99: a report of a powered link, as it acts. -/
theorem onReport_start {m : Mod} {t : Time} {s v : State} {act : State → State} (power : (s.mod m).power = true)
    (acts : act ((startEvent t s).withMod m { s.mod m with timeouts := 0 } []) = v) :
    onReport m act (startEvent t s) = v :=
  (onReport_powered (s := startEvent t s) act power).trans acts

/-- Settles O47. -/
theorem scanAndSelectionEnd : Obligations.ScanAndSelectionEnd := by
  unfold Obligations.ScanAndSelectionEnd
  refine ⟨fun t m entries s reset power state link scan pending selected => ?_,
    fun t m code o s reset power flight select named => ?_⟩
  · have scanned := scanListReport_flying (s := startEvent t s) (m := m) (r := { s.mod m with timeouts := 0 }) (out := [])
      (entries := entries) (by exact scan) selected
    have can : Module.canSettle
        { s.mod m with timeouts := 0, inFlight := none, table := scanTable entries (s.mod m).table } = true :=
      Module.canSettle_of power (ne_of_eq_of_ne state (by decide)) link rfl pending
    refine ⟨fun c first => ?_, fun first => ?_⟩
    · refine congrArg _ (event_withMod reset (onReport_start power (scanned.trans (settle_selects can ?_)))
        fun _ => Module.grantable_of_state (by simp [Module.selects, Module.ordered]) (by simp [Module.selects, Module.ordered]))
      dsimp only
      rw [selected]
      exact settleCase_select first
    · refine congrArg _ (event_withMod reset (onReport_start power (scanned.trans ((settle_noService can ?_ ?_).trans ?_)))
        fun _ => Module.grantable_of_state (by simp) (by simp))
      · dsimp only
        rw [selected]
        exact settleCase_noService first
      · exact ne_of_eq_of_ne state (by decide)
      · rw [← selected]; rfl
  · rw [← named]
    refine ⟨fun link => ?_, fun link state pending calm usable best early => ?_⟩
    · refine congrArg _ (event_withMod reset (onReport_start power
        ((congrArg (fun c => selectEnds m c true _) named.symm).trans ((selectEnds_ok (by exact flight) select).trans
          (selectSucceeds_linked _ link)))) fun _ => Module.grantable_of_link link)
    · exact congrArg _ (event_calm (u := (startEvent t s).withMod m _ []) reset (onReport_start power
        ((congrArg (fun c => selectEnds m c true _) named.symm).trans
          (selected_ready power state link pending flight select usable best early))) calm
        (by simp [State.withMod, startEvent]) (by simp [State.withMod, startEvent]))

end Sys2Proof.Machine

/-! # The progress of a call (05, 5.2) -/

namespace Sys2Proof.Machine

/-! ## The carriage of a slot -/

/-- The carriage of a slot that holds one, changed. -/
theorem State.updCar_eq {s : State} {m : Mod} {c : Carriage} (car : s.car m = some c) (f : Carriage → Carriage) :
    s.updCar m f = s.setCar m (some (f c)) := by
  unfold State.updCar State.setCar
  rw [State.car] at car
  rw [car]
  rfl

theorem State.setCar_car (s : State) (m : Mod) (c : Option Carriage) : (s.setCar m c).car m = c := PerMod.get_set_self _ _ _
theorem State.setCar_setCar (s : State) (m : Mod) (c d : Option Carriage) : (s.setCar m c).setCar m d = s.setCar m d := by
  simp only [State.setCar, PerMod.set_set]

/-- R95: a record that is dialing is in its own state. -/
theorem Carriage.phase_of_dialing {c : Carriage} (state : c.state = .dialing) : c.phase = some .dialing := by
  unfold Carriage.phase Carriage.waiting; rw [state]; rfl
theorem Carriage.setPhase_of_dialing {c : Carriage} (p : ResumeState) (state : c.state = .dialing) :
    c.setPhase p = { c with state := p.state } := by
  unfold Carriage.setPhase Carriage.waiting; rw [state]; rfl

/-- R85, R86: a stage goes to a PEER origin by PROGRESS. -/
theorem stageReport_peer {c : Carriage} (st : Stage) (code : Code) (s : State) (peer : c.kind = .peer) :
    stageReport c st code s = handOver (progressFrame c.origin c.tag (oct (stageCode st)) code) s := by
  unfold stageReport; rw [peer]

/-- An event that gives no notice, makes no module grantable and leaves the offering flag moves, besides, the schedule only. -/
theorem event_syncForm {t : Time} {op : State → State} {s u : State} (r : s.inReset = false)
    (run : op (startEvent t s) = u) (notices : u.notices = []) (freed : freedNotices (startEvent t s) u = [])
    (flag : u.offeringFlag = s.offeringFlag) : ∃ x, event t op s = u.updSched fun _ => x :=
  ⟨_, (event_sync r run notices freed).trans (offerSync_form flag)⟩

section
variable {s : State} {m : Mod} {c : Carriage} {code : Code}

/-- R86: RINGING of a PEER record that is dialing. -/
theorem carriageRings_peer (car : s.car m = some c) (peer : c.kind = .peer) (state : c.state = .dialing)
    (hangup : c.ringHangup = false) (network : c.network = some code) :
    carriageRings m s =
      handOver (progressFrame c.origin c.tag (oct 2) code)
        (s.setCar m (some
          { c with state := .ringing, ringDeadline := some (s.now + ringTime), lastStage := some .ringing })) := by
  have named : c.network.getD 0 = code := by rw [network]; rfl
  unfold carriageRings
  rw [car]
  dsimp only
  rw [if_pos ⟨Carriage.phase_of_dialing state, hangup⟩, stageReport_peer _ _ _ peer, named, State.updCar_eq car,
    Carriage.setPhase_of_dialing _ state]
  rfl

/-- R150: a burst begins on a destination without a prompt. -/
theorem startBurst_idle {r : BurstRequest} (idle : (s.csw.players.get (modPlayer r.dest)).state = .idle) :
    ∃ w, startBurst r s = (s.updCsw fun _ => w) ∧
      w.ident = { s.csw.ident with running := some r, digits := burstDigits r, digit := 1, inTone := true, since := s.now } ∧
      (w.modTx.get r.dest).overlay = some .ident := by
  refine ⟨_, if_neg fun plays => ?_, rfl, congrArg Slot.overlay (PerMod.get_set_self _ _ _)⟩
  have not : playerPlays s (modPlayer r.dest) none = false := by simp [playerPlays, idle]
  exact Bool.false_ne_true (not.symm.trans plays)

/-- R149: without a burst that runs, a request starts. -/
theorem requestBurst_free {r : BurstRequest} (free : s.csw.ident.running = none) : requestBurst r s = startBurst r s := by
  unfold requestBurst; rw [free]

/-- R86, R91: ANSWERED of a PEER record that is dialing, with its burst. -/
theorem carriageAnswers_peer (car : s.car m = some c) (peer : c.kind = .peer) (state : c.state = .dialing)
    (hangup : c.ringHangup = false) (network : c.network = some code) (free : s.csw.ident.running = none)
    (idle : (s.csw.players.get (modPlayer m)).state = .idle) :
    ∃ w, carriageAnswers m s =
      (handOver (progressFrame c.origin c.tag (oct 3) code)
        (s.setCar m (some
          { c with state := .connected, answered := true, ringDeadline := none, lastStage := some .answered }))).updCsw
        (fun _ => w) ∧
      w.ident =
        { s.csw.ident with
          running := some { dest := m, sectionCode := s.straps.sectionCode, origin := c.origin, carrier := s.own }
          digits := burstDigits { dest := m, sectionCode := s.straps.sectionCode, origin := c.origin, carrier := s.own }
          digit := 1, inTone := true, since := s.now } ∧
      (w.modTx.get m).overlay = some .ident := by
  have named : c.network.getD 0 = code := by rw [network]; rfl
  have told : carriageAnswers m s =
      askBurst m c (handOver (progressFrame c.origin c.tag (oct 3) code)
        (s.setCar m (some
          { c with state := .connected, answered := true, ringDeadline := none, lastStage := some .answered }))) := by
    unfold carriageAnswers
    rw [car]
    dsimp only
    rw [if_pos ⟨.inl (Carriage.phase_of_dialing state), hangup⟩, stageReport_peer _ _ _ peer, named,
      State.updCar_eq car, Carriage.setPhase_of_dialing _ state]
    simp only [peer]
    rfl
  obtain ⟨w, starts, ident, overlay⟩ := startBurst_idle
    (r := { dest := m, sectionCode := s.straps.sectionCode, origin := c.origin, carrier := s.own })
    (s := handOver (progressFrame c.origin c.tag (oct 3) code)
      (s.setCar m (some
        { c with state := .connected, answered := true, ringDeadline := none, lastStage := some .answered })))
    (by rw [handOver_csw]; exact idle)
  rw [handOver_csw, handOver_now] at ident
  refine ⟨w, told.trans (Eq.trans ?_ starts), ident, overlay⟩
  unfold askBurst State.own
  rw [handOver_straps]
  exact requestBurst_free (by rw [handOver_csw]; exact free)

end

/-- Settles O48. -/
theorem callProgressIsReported : Obligations.CallProgressIsReported := by
  unfold Obligations.CallProgressIsReported
  intro t m c code s reset power dialing link car peer state hangup network
  -- the state in which the carriage learns of the report, its module in the state `st`
  have freed {u : State} {st : ModuleState} (set : u.modules = s.modules.set m
      { s.mod m with timeouts := 0, state := st, inFlight := none, progressDeadline := none }) :
      freedNotices (startEvent t s) u = [] :=
    freedNotices_set (s0 := startEvent t s) set fun _ => Module.grantable_of_link link
  refine ⟨?_, fun free idle => ?_⟩
  · have rings := carriageRings_peer (code := code) (s := (startEvent t s).withMod m
      { s.mod m with timeouts := 0, state := .ringing, inFlight := none, progressDeadline := none } []) car peer state hangup
      network
    have run : onReport m (ringingReport m) (startEvent t s) = _ := onReport_start power (Eq.trans (by
      unfold ringingReport
      rw [State.withMod_mod, if_pos (by exact dialing), State.updMod_withMod]) rings)
    exact congrArg _ (event_sync reset run (handOver_notices _ _) (freed (handOver_modules _ _)))
  · obtain ⟨w, answers, ident, overlay⟩ := carriageAnswers_peer (code := code) (s := (startEvent t s).withMod m
      { s.mod m with timeouts := 0, state := .inCall, inFlight := none, progressDeadline := none } []) car peer state hangup
      network free (congrArg Player.state idle)
    have run : onReport m (answeredReport m) (startEvent t s) = _ := onReport_start power (Eq.trans (by
      unfold answeredReport
      rw [State.withMod_mod, if_pos (.inl (by exact dialing)), State.updMod_withMod]) answers)
    obtain ⟨x, answered⟩ := event_syncForm reset run (handOver_notices _ _) (freed (handOver_modules _ _))
      (offeringFlag_congr (handOver_straps _ _) (handOver_supply _ _) (handOver_dupFault _ _))
    refine ⟨_, congrArg Host.Outcome.next answered, ?_, ?_, ?_, ?_, ?_, overlay⟩
    · rw [handOver_form]; rfl
    · show (handOver _ (((startEvent t s).withMod m _ []).setCar m _)).band = _
      exact (handOver_congr _ (by rfl) (by rfl) (by rfl)).1
    · exact congrArg Ident.running ident
    · exact congrArg Ident.digit ident
    · exact congrArg Ident.inTone ident

end Sys2Proof.Machine

/-! # Lane Controller (07): carrier, quiet, engines and words -/

namespace Sys2Proof.Machine

/-! ## Carrier (7.1, 7.2) -/

/-- R126: a lane without an owner is not driven. -/
theorem LaneEntry.driven_unowned {x : LaneEntry} (owner : x.owner = none) : x.driven = none := by
  unfold LaneEntry.driven; rw [owner]; split <;> rfl

/-- The engines that listen on a half, changed. -/
def State.atHalf (s : State) (l : Lane) (h : Half) (f : Engine → Engine) : State :=
  { s with engines := s.engines.map fun x => if x.listens l h then f x else x }

/-- An engine listens on its own lane only. -/
theorem Engine.listens_away {x : Engine} {l : Lane} (h : Half) (away : x.lane ≠ some l) : x.listens l h = false := by
  unfold Engine.listens; rw [beq_eq_false_iff_ne.mpr away]; rfl

/-- Engines none of which listens on a half stay as they are. -/
theorem State.atHalf_away {s : State} {l : Lane} (h : Half) (f : Engine → Engine) (away : ∀ e, (s.engine e).lane ≠ some l) :
    s.atHalf l h f = s := by
  have not (e : EngineId) : ¬ (s.engine e).listens l h = true := Bool.eq_false_iff.mp (Engine.listens_away h (away e))
  have kept : (s.engines.map fun x => if x.listens l h then f x else x) =
      { e0 := s.engine .e0, e1 := s.engine .e1, e2 := s.engine .e2 } := by
    show ({ e0 := _, e1 := _, e2 := _ } : PerEngine Engine) = _
    congr 1
    · exact if_neg (not .e0)
    · exact if_neg (not .e1)
    · exact if_neg (not .e2)
  unfold State.atHalf
  rw [kept]
  rfl

/-- R121, R122: a lane as carrier is declared heard on a half. -/
def LaneEntry.rises (x : LaneEntry) (h : Half) : LaneEntry :=
  { x.setHeard h true with
    quietSince := none
    occupancy := if x.occupancy = .free then .busy else x.occupancy }

/-- R121, R122: a lane as carrier is declared not heard on a half. -/
def LaneEntry.falls (x : LaneEntry) (h : Half) (now : Time) : LaneEntry :=
  if !(x.setHeard h false).heard (otherHalf h) && x.driven.isNone then { x.setHeard h false with quietSince := some now }
  else x.setHeard h false

@[simp] theorem LaneEntry.setHeard_supervised (x : LaneEntry) (h : Half) (b : Bool) :
    (x.setHeard h b).supervised = x.supervised := by cases h <;> rfl
@[simp] theorem LaneEntry.setHeard_gapStart (x : LaneEntry) (h : Half) (b : Bool) :
    (x.setHeard h b).gapStart = x.gapStart := by cases h <;> rfl
@[simp] theorem LaneEntry.setHeard_other (x : LaneEntry) (h : Half) (b : Bool) :
    (x.setHeard h b).heard (otherHalf h) = x.heard (otherHalf h) := by cases h <;> rfl
@[simp] theorem LaneEntry.rises_owner (x : LaneEntry) (h : Half) : (x.rises h).owner = x.owner := LaneEntry.setHeard_owner _ _ _
@[simp] theorem LaneEntry.falls_owner (x : LaneEntry) (h : Half) (now : Time) : (x.falls h now).owner = x.owner := by
  unfold LaneEntry.falls; split <;> exact LaneEntry.setHeard_owner _ _ _

section
variable {s u : State} {l : Lane} {h : Half}

/-- R121, R122: carrier is declared heard on a half that is read. -/
theorem carrierRises_read (read : halfRead l h s = true) (silent : (s.lane l).heard h = false)
    (gap : countTestGap l h (endGap l h (s.updLane l fun x => x.rises h)) = u) :
    carrierRises l h s = u.atHalf l h (·.carrierOn u.now) := by
  have both : (halfRead l h s && !(s.lane l).heard h) = true := by rw [read, silent]; rfl
  rw [← gap]
  exact if_pos both

/-- R121: carrier is declared not heard on a half that is read. -/
theorem carrierFalls_read (read : halfRead l h s = true) (heard : (s.lane l).heard h = true)
    (gap : beginGap l h (s.updLane l fun x => x.falls h s.now) = u) :
    carrierFalls l h s = u.atHalf l h (·.carrierOff u.now) := by
  have both : (halfRead l h s && (s.lane l).heard h) = true := by rw [read, heard]; rfl
  rw [← gap]
  exact if_pos both

theorem endGap_unowned (owner : (s.lane l).owner = none) : endGap l h s = s := by unfold endGap; dsimp only; rw [owner]
theorem beginGap_unowned (owner : (s.lane l).owner = none) : beginGap l h s = s := by unfold beginGap; dsimp only; rw [owner]

/-- R182: no checker of a lane test listens. -/
theorem countTestGap_away (away : (s.engine .e0).lane ≠ some l) : countTestGap l h s = s := by
  have not : s.engines.e0.listens l h = false := Engine.listens_away h away
  exact if_neg fun ⟨_, listens, _⟩ => Bool.false_ne_true (not.symm.trans listens)

theorem halfRead_unowned (owner : (s.lane l).owner = none) : halfRead l h s = true := by
  unfold halfRead; rw [LaneEntry.driven_unowned owner]; rfl

theorem State.updLane_lane (f : LaneEntry → LaneEntry) : (s.updLane l f).lane l = f (s.lane l) := PerLane.get_set_self _ _ _

/-- R121, R122: carrier on a lane without an owner that no engine listens to. -/
theorem carrierRises_unowned (owner : (s.lane l).owner = none) (occupancy : (s.lane l).occupancy ≠ .own)
    (silent : (s.lane l).heard h = false) (away : ∀ e, (s.engine e).lane ≠ some l) :
    carrierRises l h s =
      { s with
        lanes := s.lanes.set l { (s.lane l).setHeard h true with occupancy := .busy, quietSince := none } } := by
  have heard : (s.lane l).rises h = { (s.lane l).setHeard h true with occupancy := .busy, quietSince := none } := by
    unfold LaneEntry.rises
    cases free : (s.lane l).occupancy <;> simp_all
  rw [← heard]
  refine (carrierRises_read (halfRead_unowned owner) silent ?_).trans (State.atHalf_away h _ away)
  rw [endGap_unowned (by rw [State.updLane_lane]; exact (LaneEntry.rises_owner _ _).trans owner)]
  exact countTestGap_away (away .e0)

/-- R121: the end of carrier on a lane without an owner that no engine listens to. -/
theorem carrierFalls_unowned (owner : (s.lane l).owner = none) (heard : (s.lane l).heard h = true)
    (away : ∀ e, (s.engine e).lane ≠ some l) :
    carrierFalls l h s =
      { s with
        lanes := s.lanes.set l
          { (s.lane l).setHeard h false with
            quietSince := if (s.lane l).heard (otherHalf h) then (s.lane l).quietSince else some s.now } } := by
  have entry : (s.lane l).falls h s.now =
      { (s.lane l).setHeard h false with
        quietSince := if (s.lane l).heard (otherHalf h) then (s.lane l).quietSince else some s.now } := by
    unfold LaneEntry.falls
    rw [LaneEntry.setHeard_other, LaneEntry.driven_unowned owner]
    cases (s.lane l).heard (otherHalf h) <;> cases h <;> rfl
  rw [← entry]
  exact (carrierFalls_read (halfRead_unowned owner) heard
    (beginGap_unowned (by rw [State.updLane_lane, LaneEntry.falls_owner]; exact owner))).trans (State.atHalf_away h _ away)

end

/-- A command that leaves a calm state with quiet notices, and brings about nothing further. -/
theorem exec_calm {c : Instr} {t : Time} {op : State → State} {s u : State} (arm : exec c s = .next (event t op s))
    (r : s.inReset = false) (run : op (startEvent t s) = u) (calm : u.calm) (quiet : ∀ x ∈ u.notices, x.quiet = true)
    (few : u.notices.length ≤ 60) (h : Unnoticed (startEvent t s) { u with notices := [] }) :
    exec c s = .next { u with notices := [] } := by
  rw [arm, event_calm r run calm quiet few, offerSync_unnoticed h]

/-- Settles O52. -/
theorem carrierAndTimeMoveTheLane : Obligations.CarrierAndTimeMoveTheLane := by
  unfold Obligations.CarrierAndTimeMoveTheLane
  intro t l s reset occupancy owner away
  refine ⟨fun h silent => exec_local rfl reset (carrierRises_unowned (s := startEvent t s) owner occupancy silent away),
    fun h heard => exec_local rfl reset (carrierFalls_unowned (s := startEvent t s) owner heard away),
    fun q busy quiet due calm => ?_, fun q quarantine due calm => ?_⟩
  · obtain ⟨ns, noticed, few, mild⟩ := noticeIfFree_eq l ((startEvent t s).updLane l fun x => { x with occupancy := .free })
    have due' : (startEvent t s).due ((s.lane l).quietSince.map (· + laneQuiet)) = true :=
      startEvent_due (congrArg (Option.map (· + laneQuiet)) quiet) due
    have run : laneTurnsFree l (startEvent t s) = _ := (if_pos ⟨busy, due'⟩).trans noticed
    exact exec_calm rfl reset run calm mild (Nat.le_trans few (by decide)) ⟨rfl, rfl, rfl, rfl, rfl, rfl⟩
  · obtain ⟨ns, noticed, few, mild⟩ :=
      noticeIfFree_eq l ((startEvent t s).updLane l fun x => { x with quarantineUntil := none })
    have run : endQuarantine l (startEvent t s) = _ := (if_pos (startEvent_due quarantine due)).trans noticed
    exact exec_calm rfl reset run calm mild (Nat.le_trans few (by decide)) ⟨rfl, rfl, rfl, rfl, rfl, rfl⟩

/-! ## Words at a checker (7.3) -/

section
variable {x : Engine} {i : WordIn} {g : Nat} {t : Time}

/-- R132: SEEK loads a word. -/
theorem Engine.word_loads (seek : x.checker = .seek) (empty : x.seekLoaded = false)
    (whole : ∀ c, x.seekFrom = some c → c + wordTime ≤ t) :
    x.word i g t =
      ({ x with predictor := freeRun 17 (loadBits 15 0 i.word x.predictor), seekLoaded := true, seekFrom := none }, none) := by
  have takes : x.takesWord t = true := by
    unfold Engine.takesWord
    cases from_ : x.seekFrom with
    | none => rfl
    | some c => exact decide_eq_true (whole c from_)
  unfold Engine.word
  rw [if_pos ⟨seek, empty⟩, takes]; rfl

/-- R133: a word in STEADY. -/
theorem Engine.word_steady (steady : x.checker = .steady) :
    x.word i g t =
      ({ x with predictor := (nextWord (freeRun i.gapBits x.predictor)).2 } : Engine).steadyWord i.word (x.wordErrors i) := by
  unfold Engine.word
  rw [if_neg fun h => absurd (steady.symm.trans h.1) (by decide), steady]
  rfl

/-- R134: a word in CHECK. -/
theorem Engine.word_check (check : x.checker = .check) :
    x.word i g t =
      ({ x with predictor := (nextWord (freeRun i.gapBits x.predictor)).2 } : Engine).checkWord i.word (x.wordErrors i) g := by
  unfold Engine.word
  rw [if_neg fun h => absurd (check.symm.trans h.1) (by decide), check]
  rfl

variable {w : BitVec 32}

/-- R135: the seventh identical word ends the checker. -/
theorem Engine.steadyWord_stuck {err : Nat} (stuck : 7 ≤ x.runAfter w) :
    ∃ y, x.steadyWord w err = (y, some .stuck) ∧ y = { x with run := y.run, lastWord := y.lastWord, checker := .ended } :=
  ⟨_, if_pos stuck, rfl⟩
theorem Engine.checkWord_stuck {err : Nat} (stuck : 7 ≤ x.runAfter w) :
    ∃ y, x.checkWord w err g = (y, some .stuck) ∧ y = { x with run := y.run, lastWord := y.lastWord, checker := .ended } :=
  ⟨_, if_pos stuck, rfl⟩

/-- R133: a right word below the sixteenth. -/
theorem Engine.steadyWord_counts (steady : x.checker = .steady) (free : x.runAfter w < 7) (few : x.steady < 15) :
    x.steadyWord w 0 = ({ x with run := x.runAfter w, lastWord := some w, steady := x.steady + 1 }, none) := by
  unfold Engine.steadyWord
  dsimp only
  rw [if_neg (Nat.not_le.mpr free), if_pos rfl, if_pos (by omega), ← steady]

/-- R133: the sixteenth right word. -/
theorem Engine.steadyWord_reached (free : x.runAfter w < 7) (last : x.steady = 15) :
    x.steadyWord w 0 =
      ({ x with
         run := x.runAfter w, lastWord := some w, checker := .check, steady := 16, compared := 0, errors := 0, compare := 0 },
       none) := by
  unfold Engine.steadyWord
  dsimp only
  rw [if_neg (Nat.not_le.mpr free), if_pos rfl, if_neg (by omega)]

/-- R133: a wrong word below the eighth restart. -/
theorem Engine.steadyWord_restarts {err : Nat} (free : x.runAfter w < 7) (wrong : err ≠ 0) (few : x.restarts < 7) :
    x.steadyWord w err =
      ({ x with
         run := 0, lastWord := none, checker := .seek, seekLoaded := false, seekFrom := none, steady := 0,
         restarts := x.restarts + 1 }, none) := by
  unfold Engine.steadyWord
  dsimp only
  rw [if_neg (Nat.not_le.mpr free), if_neg wrong, if_pos (by omega)]

/-- R133: the eighth restart. -/
theorem Engine.steadyWord_nosync {err : Nat} (free : x.runAfter w < 7) (wrong : err ≠ 0) (last : x.restarts = 7) :
    ∃ y, x.steadyWord w err = (y, some .nosync) ∧
      y = { x with run := y.run, lastWord := y.lastWord, checker := .ended, steady := 0, restarts := 8 } := by
  have ends : x.steadyWord w err =
      ({ x with run := x.runAfter w, lastWord := some w, checker := .ended, steady := 0, restarts := 8 }, some .nosync) := by
    unfold Engine.steadyWord
    dsimp only
    rw [if_neg (Nat.not_le.mpr free), if_neg wrong, if_neg (by omega)]
  exact ⟨_, ends, rfl⟩

/-- R134: a compared word below the last. -/
theorem Engine.checkWord_counts {err : Nat} (free : x.runAfter w < 7) (few : x.compared + 1 < g) :
    x.checkWord w err g =
      ({ x with
         run := x.runAfter w, lastWord := some w, errors := satAdd x.errors err, compared := x.compared + 1 }, none) := by
  unfold Engine.checkWord
  dsimp only
  rw [if_neg (Nat.not_le.mpr free), if_pos few]

/-- R134: the last compared word. -/
theorem Engine.checkWord_complete {err : Nat} (free : x.runAfter w < 7) (last : x.compared + 1 = g) :
    x.checkWord w err g =
      ({ x with
         run := x.runAfter w, lastWord := some w, errors := satAdd x.errors err, compared := x.compared + 1,
         checker := .ended }, some .complete) := by
  unfold Engine.checkWord
  dsimp only
  rw [if_neg (Nat.not_le.mpr free), if_neg (by omega)]

end

section
variable {s : State} {e : EngineId} {i : WordIn}

/-- R136: bit clocks of a call probe move its compare only. -/
theorem countClocks_probe (edges : List ClockEdge) (user : (s.engine e).user ≠ some .laneTest) :
    countClocks e edges s = s.updEngine e fun x => x.clocked edges := by
  have unnoted (peak : Nat) : noteLargest e peak s = s := if_neg fun ⟨first, test⟩ => user (by subst first; exact test)
  unfold countClocks
  dsimp only
  split
  · rw [unnoted]
  · next not =>
    have same : (s.engines.get e).clocked edges = s.engines.get e := Engine.clocked_of_not_check edges not
    unfold State.updEngine
    dsimp only
    rw [same, PerEngine.set_get_self]

/-- R182: the compare of a call probe does not return to 0. -/
theorem wrapCompare_probe (before : Nat) (user : (s.engine e).user ≠ some .laneTest) : wrapCompare e before s = s :=
  if_neg fun ⟨first, test, _⟩ => user (by subst first; exact test)

/-- R134: a call probe compares 1,024 words. -/
theorem wordGoal_probe (user : (s.engine e).user ≠ some .laneTest) : wordGoal e s = 1024 := by
  unfold wordGoal
  cases who : (s.engine e).user with
  | none => rfl
  | some o =>
    cases o with
    | laneTest => exact absurd who user
    | origin | carriage => rfl

/-- What a word brings about once it has been read. -/
def wordOutcome (e : EngineId) (o : Option WordEnd) (s : State) : State :=
  match o with
  | none => s
  | some .stuck => reportOutcome e .stuck s
  | some .nosync => reportOutcome e .nosync s
  | some .complete => completeOutcome e s

/-- R132 to R136: a word at the checker of a call probe. -/
theorem wordArrives_probe {y : Engine} {o : Option WordEnd} (user : (s.engine i.engine).user ≠ some .laneTest)
    (word : ((s.engine i.engine).clocked i.edges).word i 1024 s.now = (y, o))
    (same : y.user = (s.engine i.engine).user) :
    wordArrives i s = wordOutcome i.engine o { s with engines := s.engines.set i.engine y } := by
  have clocked : ((s.updEngine i.engine fun x => x.clocked i.edges).engine i.engine) =
      (s.engine i.engine).clocked i.edges := PerEngine.get_set_self _ _ _
  have kept : ((s.engine i.engine).clocked i.edges).user = (s.engine i.engine).user := by
    unfold Engine.clocked; split <;> rfl
  unfold wordArrives
  rw [countClocks_probe i.edges user]
  dsimp only
  rw [wordGoal_probe (s := s.updEngine _ _) (by rw [clocked, kept]; exact user), clocked]
  have now : (s.updEngine i.engine fun x => x.clocked i.edges).now = s.now := rfl
  rw [now, word]
  dsimp only
  have read : ((s.updEngine i.engine fun x => x.clocked i.edges).updEngine i.engine fun _ => y) =
      { s with engines := s.engines.set i.engine y } := by
    simp only [State.updEngine, PerEngine.set_set]
  rw [read, wrapCompare_probe _ (by
    show ((s.engines.set i.engine y).get i.engine).user ≠ _
    rw [PerEngine.get_set_self, same]; exact user)]
  rcases o with _ | ⟨_ | _ | _⟩ <;> rfl

end

end Sys2Proof.Machine

/-! # Engines, their times and the words of a call probe (07, 7.3) -/

namespace Sys2Proof.Machine

section
variable {s : State} {e : EngineId}

/-- R130: the generator of a call probe has sent its 600 ms. -/
theorem generatorEnds_due (running : (s.engine e).generator = .running) (user : (s.engine e).user ≠ some .laneTest)
    (due : (s.engine e).genStart + patternTime ≤ s.now) (works : (s.engine e).checker ≠ .ended) :
    generatorEnds e s = { s with engines := s.engines.set e { s.engine e with generator := .done } } := by
  have goesOn : ({ s.engine e with generator := .done } : Engine).finish = { s.engine e with generator := .done } :=
    if_neg fun h => works h.1
  exact (if_pos ⟨running, user, due⟩).trans (congrArg (fun x => { s with engines := s.engines.set e x }) goesOn)

/-- R132: 40 ms of carrier end SETTLE. -/
theorem settleEnds_due {c : Time} (settle : (s.engine e).checker = .settle) (since : (s.engine e).settleFrom = some c)
    (due : c + settleTime ≤ s.now) :
    settleEnds e s =
      { s with
        engines := s.engines.set e
          { s.engine e with
            checker := .seek, seekLoaded := false, seekFrom := some s.now, run := 0, lastWord := none } } := by
  have due' : s.due ((s.engine e).settleFrom.map (· + settleTime)) = true := by rw [since]; exact decide_eq_true due
  exact if_pos ⟨settle, due'⟩

/-- R133, R134: 40 ms of a gap return the checker to SETTLE. -/
theorem checkerGapResets_due {c : Time}
    (state : (s.engine e).checker = .steady ∨ (s.engine e).checker = .check ∨ (s.engine e).checker = .seek)
    (since : (s.engine e).gapFrom = some c) (due : c + gapLimit ≤ s.now) :
    checkerGapResets e s = { s with engines := s.engines.set e ((s.engine e).settle false s.now) } := by
  have due' : s.due ((s.engine e).gapFrom.map (· + gapLimit)) = true := by rw [since]; exact decide_eq_true due
  exact if_pos ⟨state, due'⟩

/-- R136: bit clocks count while carrier is heard. -/
theorem lineArrives_heard {l : Lane} {h : Half} (edges : List ClockEdge) (lane : (s.engine e).lane = some l)
    (half : (s.engine e).receiveHalf = some h) (heard : (s.lane l).heard h = true) :
    lineArrives (.clocks e edges) s = countClocks e edges s := by
  have hears : engineHears e s = true := by unfold engineHears; rw [lane, half]; exact heard
  exact if_pos hears
theorem lineArrives_silent {l : Lane} {h : Half} (edges : List ClockEdge) (lane : (s.engine e).lane = some l)
    (half : (s.engine e).receiveHalf = some h) (silent : (s.lane l).heard h = false) :
    lineArrives (.clocks e edges) s = s := by
  have not : engineHears e s = false := by unfold engineHears; rw [lane, half]; exact silent
  exact if_neg (by rw [not]; decide)

/-- R136: outside CHECK bit clocks change nothing. -/
theorem countClocks_idle (edges : List ClockEdge) (not : (s.engine e).checker ≠ .check) : countClocks e edges s = s := if_neg not

/-- R136: in CHECK bit clocks move the compare. -/
theorem Engine.clocked_check {x : Engine} (edges : List ClockEdge) (check : x.checker = .check) :
    x.clocked edges = { x with compare := clockCompare x.compare edges } := if_pos check

/-- R134, R136: a word in CHECK, after the bit clocks that came with it. -/
theorem Engine.word_clocked_check {x : Engine} {i : WordIn} {g : Nat} {t : Time} (check : x.checker = .check) :
    (x.clocked i.edges).word i g t =
      ({ x with
         compare := clockCompare x.compare i.edges
         predictor := (nextWord (freeRun i.gapBits x.predictor)).2 } : Engine).checkWord i.word (x.wordErrors i) g := by
  rw [Engine.clocked_check i.edges check, Engine.word_check (by exact check)]
  rfl

end

/-- An event that changes an engine only. -/
theorem exec_engine {c : Instr} {t : Time} {op : State → State} {s : State} {e : EngineId} {y : Engine}
    (arm : exec c s = .next (event t op s)) (r : s.inReset = false)
    (run : op (startEvent t s) = { startEvent t s with engines := s.engines.set e y }) :
    exec c s = .next { startEvent t s with engines := s.engines.set e y } :=
  exec_unnoticed arm r run ⟨rfl, rfl, rfl, rfl, rfl, rfl⟩

/-- Settles O54: the engine after each of its times, and after a word by the state of its checker. -/
theorem enginesFollowTimesAndWords : Obligations.EnginesFollowTimesAndWords := by
  unfold Obligations.EnginesFollowTimesAndWords
  intro t e s reset user
  refine ⟨fun running due works => exec_local rfl reset (generatorEnds_due (s := startEvent t s) running user due works),
    fun c settle since due => exec_local rfl reset (settleEnds_due (s := startEvent t s) settle since due),
    fun c state since due => exec_local rfl reset (checkerGapResets_due (s := startEvent t s) state since due),
    fun l h es lane half => ⟨fun check heard => ?_, fun idle => ?_⟩, fun i same => ?_⟩
  · have run := (lineArrives_heard (s := startEvent t s) es lane half heard).trans
      ((countClocks_probe (s := startEvent t s) es user).trans
        (congrArg (fun x => { startEvent t s with engines := s.engines.set e x }) (Engine.clocked_check es check)))
    exact exec_engine rfl reset run
  · have run : lineArrives (.clocks e es) (startEvent t s) = startEvent t s := by
      cases heard : (s.lane l).heard h with
      | false => exact lineArrives_silent (s := startEvent t s) es lane half heard
      | true =>
        rcases idle with not | silent
        · exact (lineArrives_heard (s := startEvent t s) es lane half heard).trans
            (countClocks_idle (s := startEvent t s) es not)
        · exact absurd (silent.symm.trans heard) Bool.false_ne_true
    exact exec_unnoticed rfl reset run ⟨rfl, rfl, rfl, rfl, rfl, rfl⟩
  · subst same
    -- a word that the checker outlives, by the engine it leaves
    have reads {y : Engine} (word : ((s.engine i.engine).clocked i.edges).word i 1024 (max s.now t) = (y, none))
        (same : y.user = (s.engine i.engine).user) :
        wordArrives i (startEvent t s) = { startEvent t s with engines := s.engines.set i.engine y } :=
      wordArrives_probe (s := startEvent t s) user word same
    have unclocked {k : CheckerState} (state : (s.engine i.engine).checker = k) (not : k ≠ .check) :
        (s.engine i.engine).clocked i.edges = s.engine i.engine :=
      Engine.clocked_of_not_check i.edges (ne_of_eq_of_ne state not)
    refine ⟨fun seek empty => ⟨fun whole => ?_, fun c from_ early => ?_⟩, fun steady free right few => ?_,
      fun steady free right last => ?_, fun steady free wrong few => ?_, fun check free few => ?_⟩
    · exact exec_engine rfl reset (reads (by rw [unclocked seek (by decide)]; exact Engine.word_loads seek empty whole) rfl)
    · have run := reads (by rw [unclocked seek (by decide)]; exact Engine.word_passed_over i 1024 seek empty from_ early) rfl
      refine exec_unnoticed rfl reset (run.trans ?_) ⟨rfl, rfl, rfl, rfl, rfl, rfl⟩
      show { startEvent t s with engines := s.engines.set i.engine (s.engines.get i.engine) } = _
      rw [PerEngine.set_get_self]; rfl
    · refine exec_engine rfl reset (reads ?_ rfl)
      rw [unclocked steady (by decide), Engine.word_steady steady, right]
      exact Engine.steadyWord_counts steady free few
    · refine exec_engine rfl reset (reads ?_ rfl)
      rw [unclocked steady (by decide), Engine.word_steady steady, right]
      exact Engine.steadyWord_reached free last
    · refine exec_engine rfl reset (reads ?_ rfl)
      rw [unclocked steady (by decide), Engine.word_steady steady]
      exact Engine.steadyWord_restarts free wrong few
    · refine exec_engine rfl reset (reads ?_ rfl)
      rw [Engine.word_clocked_check check]
      exact Engine.checkWord_counts free (by show (s.engine i.engine).compared + 1 < 1024; omega)

end Sys2Proof.Machine

/-! # Claims of peers (04, 4.3 to 4.6) -/

namespace Sys2Proof.Machine

/-! ## The record and the entry of an origin -/

section
variable {s : State} {f : Rx} {o : Station} {tag : Tag} {mask : LaneMask}

/-- R60: no carriage is of this origin. -/
theorem State.carriageOf_none (away : ∀ m c, s.car m = some c → c.origin ≠ o) (tag : Tag) : s.carriageOf o tag = none := by
  have not (m : Mod) : (match s.car m with
      | some x => x.origin == o && x.tag == tag
      | none => false) = false := by
    cases car : s.car m with
    | none => rfl
    | some c => simp [away m c car]
  unfold State.carriageOf
  exact (if_neg (Bool.eq_false_iff.mp (not .a))).trans (if_neg (Bool.eq_false_iff.mp (not .b)))

/-- R62: no entry is of this origin. -/
theorem State.queued_none (away : ∀ e ∈ s.claims, e.origin ≠ o) (tag : Tag) : s.queued o tag = false := by
  unfold State.queued ClaimEntry.names
  simpa using fun e he same => absurd same (away e he)

/-- R63: without claims or carriages of an origin none is stale. -/
theorem clearStale_none (claims : ∀ e ∈ s.claims, e.origin ≠ o) (carriages : ∀ m c, s.car m = some c → c.origin ≠ o)
    (tag : Tag) : clearStale o tag s = s := by
  have entries : (s.claims.any fun e => e.origin == o && e.tag != tag) = false := by
    simpa using fun e he same => absurd same (claims e he)
  have slot (m : Mod) : staleCarriage o tag (s.car m) = false := by
    unfold staleCarriage
    cases car : s.car m with
    | none => rfl
    | some c => simp [carriages m c car]
  have both : (staleCarriage o tag s.carriages.a = false) ∧ (staleCarriage o tag s.carriages.b = false) := ⟨slot .a, slot .b⟩
  unfold clearStale
  dsimp only
  rw [entries, both.1, both.2]
  rfl

/-- R60: a CLAIM NEW that the arbiter reads. -/
theorem arbiterClaim_new (heard : s.hears f) (length : f.payload.length = 3) (kind : octAt f.payload 1 = 0) {u : State}
    (test : u.svc.test = none) :
    arbiterClaim f u = claimNew f.sender.toNat (octetAt f.payload 0) (maskOf (octetAt f.payload 2)) u := by
  obtain ⟨target, _, sender, _⟩ := heard
  have reads : ¬ (unaddressed f = true ∨ f.payload.length ≠ 3 ∨ 1 < octAt f.payload 1) := by
    rw [unaddressed_eq_true, length, kind]
    rintro ((h | h) | h | h)
    · exact target h
    · exact sender h
    · exact h rfl
    · exact absurd h (by decide)
  unfold arbiterClaim
  rw [if_neg reads]
  dsimp only
  rw [endTest_none _ test, if_pos kind]

/-- R60: a CLAIM REJOIN that the arbiter reads. -/
theorem arbiterClaim_rejoin (heard : s.hears f) (length : f.payload.length = 3) (kind : octAt f.payload 1 = 1) {u : State}
    (test : u.svc.test = none) :
    arbiterClaim f u = claimRejoin f.sender.toNat (octetAt f.payload 0) (maskOf (octetAt f.payload 2)) u := by
  obtain ⟨target, _, sender, _⟩ := heard
  have reads : ¬ (unaddressed f = true ∨ f.payload.length ≠ 3 ∨ 1 < octAt f.payload 1) := by
    rw [unaddressed_eq_true, length, kind]
    rintro ((h | h) | h | h)
    · exact target h
    · exact sender h
    · exact h rfl
    · exact absurd h (by decide)
  unfold arbiterClaim
  rw [if_neg reads]
  dsimp only
  rw [endTest_none _ test, if_neg (by rw [kind]; decide)]

/-- R61: a CLAIM NEW of an origin that is new to the station. -/
theorem claimNew_admitted (dup : s.band.dupFault = false) (claims : ∀ e ∈ s.claims, e.origin ≠ o)
    (carriages : ∀ m c, s.car m = some c → c.origin ≠ o) : claimNew o tag mask s = admitClaim o tag mask s := by
  unfold claimNew
  rw [State.carriageOf_none carriages]
  dsimp only
  rw [State.queued_none claims, if_neg Bool.false_ne_true, dup, if_neg Bool.false_ne_true, clearStale_none claims carriages]

/-- R61, test 5. -/
theorem admitClaim_noChannel (closed : s.straps.offer = false ∨ s.anyServiceable = false) :
    admitClaim o tag mask s = handOver (refuseFrame o tag .noChannel) s := if_pos closed

/-- R61, test 6. -/
theorem admitClaim_lowSupply (offer : s.straps.offer = true) (serviceable : s.anyServiceable = true)
    (low : s.supply.state = .low) : admitClaim o tag mask s = handOver (refuseFrame o tag .lowSupply) s :=
  (if_neg (by simp [offer, serviceable])).trans (if_pos low)

/-- R61, test 7. -/
theorem admitClaim_placed (offer : s.straps.offer = true) (serviceable : s.anyServiceable = true)
    (supply : s.supply.state ≠ .low) : admitClaim o tag mask s = placeClaim o tag mask s :=
  (if_neg (by simp [offer, serviceable])).trans (if_neg supply)

/-- R64: a claim that finds claims before it, or no module, waits or is refused. -/
theorem placeClaim_waits (busy : s.claims ≠ [] ∨ chooseModule s = none) :
    placeClaim o tag mask s =
      if s.claims.length < 6 then
        handOver (waitFrame o tag (s.claims.length + 1)) (joinClaims (newEntry o tag (some mask) s) s)
      else handOver (refuseFrame o tag .queueFull) s := by
  unfold placeClaim
  split
  next m before chosen =>
    rcases busy with claims | none
    · exact absurd (List.isEmpty_iff.mp before) claims
    · rw [none] at chosen; cases chosen
  next => rfl

/-- R64: with an empty queue, a module and a lane the claim is granted. -/
theorem placeClaim_granted {m : Mod} {l : Lane} (claims : s.claims = []) (chosen : chooseModule s = some m)
    (lane : chooseLane mask s = some l) : placeClaim o tag mask s = grantRemote m l o tag mask s := by
  unfold placeClaim
  rw [claims, chosen]
  dsimp only [List.isEmpty_nil]
  rw [lane]

end

/-- Settles O38: each test of R61 in turn. -/
theorem newClaimIsRefusedOrQueued : Obligations.NewClaimIsRefusedOrQueued := by
  unfold Obligations.NewClaimIsRefusedOrQueued
  intro t f s r heard length kind test dup claims carriages
  have read {v : State} (taken : admitClaim f.sender.toNat (octetAt f.payload 0) (maskOf (octetAt f.payload 2))
      (hunt (startEvent t s)) = v) : receive 7 f (startEvent t s) = v :=
    (receive_hears (s := startEvent t s) 7 heard rfl).trans
      ((arbiterClaim_new heard length kind (u := hunt (startEvent t s)) test).trans
        ((claimNew_admitted (s := hunt (startEvent t s)) dup claims carriages).trans taken))
  refine ⟨fun closed => ?_, fun offer serviceable low => ?_, fun offer serviceable supply full => ?_,
    fun offer serviceable supply room busy => ?_⟩
  · exact exec_handsOver rfl r (read (admitClaim_noChannel (s := hunt (startEvent t s)) closed)) (unnoticed_hunt t s)
  · exact exec_handsOver rfl r (read (admitClaim_lowSupply (s := hunt (startEvent t s)) offer serviceable low))
      (unnoticed_hunt t s)
  · have claims : s.claims ≠ [] := fun empty => by rw [empty] at full; cases full
    exact exec_handsOver rfl r (read ((admitClaim_placed (s := hunt (startEvent t s)) offer serviceable supply).trans
      ((placeClaim_waits (s := hunt (startEvent t s)) (.inl claims)).trans
        (if_neg (by show ¬ s.claims.length < 6; omega))))) (unnoticed_hunt t s)
  · exact congrArg Host.Outcome.next (event_sync r
      (read ((admitClaim_placed (s := hunt (startEvent t s)) offer serviceable supply).trans
        ((placeClaim_waits (s := hunt (startEvent t s)) busy).trans (if_pos room))))
      (handOver_notices _ _) (freedNotices_of_modules (handOver_modules _ _)))

/-! ## Grants (4.4) -/

/-- R114: a module at rest that is not scanning is committed. -/
theorem commitModule_ready {m : Mod} {s : State} (state : (s.mod m).state ≠ .refreshing) :
    commitModule m s = s.withMod m { s.mod m with link := true, pendingOrder := none } s.out := by
  have notScanning : ((s.withMod m { s.mod m with link := true, pendingOrder := none } s.out).mod m).state ≠ .refreshing := by
    rw [State.withMod_mod]; exact state
  exact if_neg fun h => notScanning h.1

/-- R79, R81, R96: a record as it is granted a lane. -/
def Carriage.grantedLane (c : Carriage) (l : Lane) (now : Time) : Carriage :=
  { c with state := .granted, lane := some l, ownPassed := false, originPassed := false,
           connectDeadline := some (now + connectTime) }

/-- A lane as a carriage takes it, and the engine that probes it. -/
structure GrantedLane (m : Mod) (l : Lane) (seed : BitVec 15) (now : Time) (x : LaneEntry) (y : Engine) : Prop where
  occupancy : x.occupancy = .own
  owner : x.owner = some (.carriage m)
  engine : Started (.carriage m) l seed true true now y

/-- R79, R81, R96: a record is granted a lane: the lane is taken and probed, and GRANT is handed over. -/
theorem grantLane_eq {m : Mod} {c : Carriage} {s : State} (l : Lane) (car : s.car m = some c) :
    ∃ x y, grantLane m l s =
      handOver (grantFrame c.origin c.tag l m c.rejoinGrant)
        { s with
          lanes := s.lanes.set l x, carriages := s.carriages.set m (some (c.grantedLane l s.now)),
          engines := s.engines.set (engineOf (.carriage m)) y } ∧
      GrantedLane m l (seedOf c.origin c.tag.toNat) s.now x y := by
  obtain ⟨x, taken, own, owner⟩ := takeLane_eq l (.carriage m) s
  obtain ⟨y, started, engine⟩ := startEngine_eq (.carriage m) l (seedOf c.origin c.tag.toNat) true true
    { s with lanes := s.lanes.set l x, carriages := s.carriages.set m (some (c.grantedLane l s.now)) }
  refine ⟨x, y, Eq.trans ?_ (congrArg (handOver _) started), own, owner, engine⟩
  have car' : State.car { s with lanes := s.lanes.set l x } m = some c := car
  unfold grantLane
  rw [car]
  dsimp only
  rw [taken, State.updCar_eq car']
  rfl

/-- R65: a module and a lane are committed to a remote claim. -/
theorem grantRemote_eq {m : Mod} {s : State} (l : Lane) (o : Station) (tag : Tag) (mask : LaneMask)
    (state : (s.mod m).state ≠ .refreshing) :
    ∃ x y, grantRemote m l o tag mask s =
      countGrant (handOver (grantFrame o tag l m false)
        { s with
          modules := s.modules.set m { s.mod m with link := true, pendingOrder := none },
          lanes := s.lanes.set l x,
          carriages := s.carriages.set m (some ((newCarriage o tag .peer (some mask)).grantedLane l s.now)),
          engines := s.engines.set (engineOf (.carriage m)) y }) ∧
      GrantedLane m l (seedOf o tag.toNat) s.now x y := by
  obtain ⟨x, y, granted, given⟩ := grantLane_eq (m := m) (c := newCarriage o tag .peer (some mask))
    (s := (s.withMod m { s.mod m with link := true, pendingOrder := none } s.out).setCar m
      (some (newCarriage o tag .peer (some mask)))) l (State.setCar_car _ _ _)
  simp only [State.setCar, PerMod.set_set] at granted
  refine ⟨x, y, Eq.trans ?_ (congrArg countGrant granted), given⟩
  unfold grantRemote
  rw [commitModule_ready state]
  rfl

/-- R167, R173: a hand-over counts at most the frames that it drops. -/
theorem handOver_counters (f : Frame) (s : State) :
    ∃ n, (handOver f s).counters = { s.counters with framesDropped := n } := by
  unfold handOver
  split
  · exact ⟨s.counters.framesDropped, rfl⟩
  · dsimp only
    split
    · exact ⟨_, rfl⟩
    · exact ⟨s.counters.framesDropped, rfl⟩

theorem handOver_count {α : Type} (f : Frame) (s : State) (g : Counters → α)
    (apart : ∀ (c : Counters) n, g { c with framesDropped := n } = g c) : g (handOver f s).counters = g s.counters := by
  obtain ⟨n, counted⟩ := handOver_counters f s
  rw [counted, apart]

/-- R96: a rejoin of a record that waits is granted a lane. -/
theorem carriageRejoin_waiting {s : State} {m : Mod} {c : Carriage} {mask : LaneMask} {l : Lane} (car : s.car m = some c)
    (state : c.state = .awaitRejoin) (lane : chooseLane mask s = some l) :
    carriageRejoin m mask s =
      grantLane m l (s.setCar m (some { c with mask := some mask, rejoinGrant := true, regrants := 0 })) := by
  have rejoin : carriageRejoin m mask s = grantRejoin m mask s := by
    unfold carriageRejoin; rw [car]; dsimp only; rw [state]
  have lane' : chooseLane mask (s.setCar m (some { c with mask := some mask })) = some l := lane
  rw [rejoin]
  unfold grantRejoin
  rw [car]
  dsimp only
  rw [State.updCar_eq car, lane']
  dsimp only
  rw [State.updCar_eq (State.setCar_car _ _ _), State.setCar_setCar]

/-- R61, R65: a grantable module is fitted and neither faulty nor disabled. -/
theorem anyServiceable_of_chosen {s : State} {m : Mod} (chosen : chooseModule s = some m) : s.anyServiceable = true := by
  have serves {r : Module} (grantable : r.grantable = true) : r.serviceable = true := by
    unfold Module.grantable Module.resting at grantable
    unfold Module.serviceable
    simp only [Bool.and_eq_true, Bool.or_eq_true, beq_iff_eq] at grantable
    obtain ⟨⟨⟨fitted, resting⟩, _⟩, _⟩ := grantable
    rcases resting with h | h <;> rw [fitted, h] <;> rfl
  unfold chooseModule at chosen
  unfold State.anyServiceable
  split at chosen
  next a b => rw [serves a]; rfl
  next a b => rw [serves a]; rfl
  next a b => rw [serves b, Bool.or_true]
  next => cases chosen

/-- Settles O39. -/
theorem newClaimIsGranted : Obligations.NewClaimIsGranted := by
  unfold Obligations.NewClaimIsGranted
  intro t f m l s r heard length kind test dup claims carriages offer supply ready chosen lane
  obtain ⟨x, y, granted, given⟩ := grantRemote_eq (s := hunt (startEvent t s)) l f.sender.toNat (octetAt f.payload 0)
    (maskOf (octetAt f.payload 2)) (ne_of_eq_of_ne ready (by decide))
  have noClaims : ∀ e ∈ s.claims, e.origin ≠ f.sender.toNat := by rw [claims]; simp
  have read := (receive_hears (s := startEvent t s) 7 heard rfl).trans
    ((arbiterClaim_new heard length kind (u := hunt (startEvent t s)) test).trans
      ((claimNew_admitted (s := hunt (startEvent t s)) dup noClaims carriages).trans
        ((admitClaim_placed (s := hunt (startEvent t s)) offer (anyServiceable_of_chosen chosen) supply).trans
          ((placeClaim_granted (s := hunt (startEvent t s)) claims chosen lane).trans granted))))
  obtain ⟨z, form⟩ := event_syncForm r read (handOver_notices _ _)
    (freedNotices_set (m := m) (r := { s.mod m with link := true, pendingOrder := none }) (handOver_modules _ _)
      fun _ => Module.grantable_of_link rfl)
    (offeringFlag_congr (handOver_straps _ _) (handOver_supply _ _) (handOver_dupFault _ _))
  rw [handOver_form] at form
  refine ⟨_, congrArg Host.Outcome.next form, ?_, PerMod.get_set_self _ _ _, PerMod.get_set_self _ _ _,
    (congrArg LaneEntry.occupancy (PerLane.get_set_self _ _ _)).trans given.occupancy,
    (congrArg LaneEntry.owner (PerLane.get_set_self _ _ _)).trans given.owner,
    (congrArg Engine.genSeed (PerEngine.get_set_self _ _ _)).trans given.engine.genSeed,
    (congrArg Engine.generator (PerEngine.get_set_self _ _ _)).trans given.engine.generator,
    (congrArg Engine.checker (PerEngine.get_set_self _ _ _)).trans given.engine.checker,
    congrArg satInc (handOver_count _ _ Counters.callsGranted fun _ _ => rfl), ?_⟩
  · simp only [countGrant, State.count, State.updSched, State.car, State.mod, State.lane, State.engine, PerMod.get_set_self,
      PerLane.get_set_self, PerEngine.get_set_self]
    rfl
  · exact (handOver_congr _ (by rfl) (by rfl) (by rfl)).1

/-- Settles O45. -/
theorem rejoinIsGranted : Obligations.RejoinIsGranted := by
  unfold Obligations.RejoinIsGranted
  intro t f m l c s r heard length kind test slot car state lane
  obtain ⟨x, y, granted, given⟩ := grantLane_eq (m := m)
    (c := { c with mask := some (maskOf (octetAt f.payload 2)), rejoinGrant := true, regrants := 0 })
    (s := (hunt (startEvent t s)).setCar m
      (some { c with mask := some (maskOf (octetAt f.payload 2)), rejoinGrant := true, regrants := 0 })) l
    (State.setCar_car _ _ _)
  simp only [State.setCar, PerMod.set_set] at granted
  have rejoins := carriageRejoin_waiting (s := hunt (startEvent t s)) car state lane
  have claimed : claimRejoin f.sender.toNat (octetAt f.payload 0) (maskOf (octetAt f.payload 2)) (hunt (startEvent t s)) =
      carriageRejoin m (maskOf (octetAt f.payload 2)) (hunt (startEvent t s)) := by
    have slot' : (hunt (startEvent t s)).carriageOf f.sender.toNat (octetAt f.payload 0) = some m := slot
    unfold claimRejoin
    dsimp only
    rw [slot']
  have read := (receive_hears (s := startEvent t s) 7 heard rfl).trans
    ((arbiterClaim_rejoin heard length kind (u := hunt (startEvent t s)) test).trans
      (claimed.trans (rejoins.trans granted)))
  have done := exec_handsOver (c := .claimRejoin t f) rfl r read ⟨rfl, rfl, rfl, rfl, rfl, rfl⟩
  rw [handOver_form] at done
  refine ⟨_, done, ?_, PerMod.get_set_self _ _ _, (congrArg LaneEntry.occupancy (PerLane.get_set_self _ _ _)).trans given.occupancy,
    (congrArg LaneEntry.owner (PerLane.get_set_self _ _ _)).trans given.owner,
    (handOver_congr _ (by rfl) (by rfl) (by rfl)).1⟩
  simp only [State.car, State.lane, State.engine, PerMod.get_set_self, PerLane.get_set_self, PerEngine.get_set_self]
  rfl

end Sys2Proof.Machine

/-! # A lane that does not prove (05, 5.1) -/

namespace Sys2Proof.Machine

/-- R123: the lane chosen depends on the own number and on which lanes are free for choosing. -/
theorem chooseLane_congr {s u : State} (mask : LaneMask) (own : u.own = s.own)
    (free : ∀ l, (u.lane l).freeForChoosing = (s.lane l).freeForChoosing) : chooseLane mask u = chooseLane mask s := by
  unfold chooseLane
  rw [own]
  simp only [free]

/-- A lane of an owner is not free for choosing. -/
theorem LaneEntry.not_free_of_owner {x : LaneEntry} {o : Owner} (owner : x.owner = some o) : x.freeForChoosing = false := by
  unfold LaneEntry.freeForChoosing; rw [owner]; simp
theorem LaneEntry.not_free_of_busy {x : LaneEntry} (busy : x.occupancy = .busy) : x.freeForChoosing = false := by
  unfold LaneEntry.freeForChoosing; rw [busy]; rfl

/-- R81, R126, R127: a lane that did not prove: given up and quarantined. -/
structure LaneFailed (x y : LaneEntry) (now : Time) : Prop where
  occupancy : y.occupancy = .busy
  owner : y.owner = none
  quarantine : ∃ q, y.quarantineUntil = some q ∧ now + ms 10000 ≤ q

/-- R126, R127: an owner gives up its lane with a quarantine. -/
theorem releaseLane_quarantined {s : State} {l : Lane} {o : Owner} (own : (s.lane l).occupancy = .own)
    (owner : (s.lane l).owner = some o) :
    ∃ y a b e, releaseLane l o (quarantineLane l s) =
      { s with
        lanes := s.lanes.set l y, csw := { s.csw with gapA := a, gapB := b },
        engines := s.engines.set (engineOf o) e } ∧
      LaneFailed (s.lane l) y s.now ∧
      (e = s.engine (engineOf o) ∨ e = (s.engine (engineOf o)).stopped) ∧
      ((s.engine (engineOf o)).lane = some l → e = (s.engine (engineOf o)).stopped) := by
  obtain ⟨q, long, quarantined⟩ := quarantineLane_eq l s
  obtain ⟨x, a, b, e, ns, released, by_⟩ := releaseLane_eq l o (quarantineLane l s)
  have entry : (quarantineLane l s).lane l = { s.lane l with quarantineUntil := some q } := by
    rw [quarantined]; exact PerLane.get_set_self _ _ _
  obtain ⟨rfl, g, rfl⟩ := by_.own (by rw [entry]; exact own) (by rw [entry]; exact owner)
  have engine := by_.engine
  have stopped := by_.stopped (by rw [entry]; exact owner)
  rw [entry] at released
  rw [quarantined] at released engine stopped
  refine ⟨({ s.lane l with quarantineUntil := some q } : LaneEntry).released s.now g, a, b, e,
    (congrArg (releaseLane l o) quarantined).trans (released.trans ?_), ⟨rfl, rfl, q, rfl, long⟩, engine, stopped⟩
  simp only [PerLane.set_set, List.append_nil]

/-- R123: a lane that was not free for choosing, and is not now, does not change the choice. -/
theorem chooseLane_set {s u : State} {l : Lane} {x : LaneEntry} (mask : LaneMask) (straps : u.straps = s.straps)
    (lanes : u.lanes = s.lanes.set l x) (before : (s.lane l).freeForChoosing = false) (now : x.freeForChoosing = false) :
    chooseLane mask u = chooseLane mask s := by
  refine chooseLane_congr mask (by unfold State.own; rw [straps]) fun n => ?_
  unfold State.lane
  rw [lanes]
  by_cases same : n = l
  · subst same; rw [PerLane.get_set_self, now]; exact before.symm
  · rw [PerLane.get_set_ne _ _ _ _ same]

section
variable {m : Mod} {c : Carriage} {l k : Lane} {mask : LaneMask} {s v : State}

/-- R81: a lane did not prove, and another one of the mask is free. -/
theorem laneFails_grants (car : s.car m = some c) (lane : c.lane = some l) (masked : c.mask = some mask) (few : c.regrants < 2)
    (released : releaseLane l (.carriage m) (quarantineLane l (stopEngine (engineOf (.carriage m)) s)) = v)
    (car' : v.car m = some c) (free : chooseLane mask v = some k) :
    laneFails m s =
      grantLane m k
        (v.setCar m (some { c with lane := none, connectDeadline := none, regrants := c.regrants + 1 })) := by
  have free' : (if c.regrants < 2 then
      chooseLane (c.mask.getD 0) (v.setCar m (some { c with lane := none, connectDeadline := none })) else none) = some k := by
    rw [if_pos few, masked]; exact free
  unfold laneFails
  rw [car]
  dsimp only
  rw [lane]
  dsimp only
  rw [released, State.updCar_eq car', free']
  dsimp only
  rw [State.updCar_eq (State.setCar_car _ _ _), State.setCar_setCar]

/-- R81: a lane that did not prove is quarantined, and another lane of the mask granted. -/
theorem laneFails_regrants (car : s.car m = some c) (lane : c.lane = some l) (masked : c.mask = some mask)
    (few : c.regrants < 2) (own : (s.lane l).occupancy = .own) (owner : (s.lane l).owner = some (.carriage m))
    (free : chooseLane mask s = some k) :
    ∃ z x y a b, laneFails m s =
      handOver (grantFrame c.origin c.tag k m c.rejoinGrant)
        { s with
          lanes := (s.lanes.set l z).set k x, csw := { s.csw with gapA := a, gapB := b },
          engines := s.engines.set (engineOf (.carriage m)) y,
          carriages := s.carriages.set m (some (({ c with regrants := c.regrants + 1 } : Carriage).grantedLane k s.now)) } ∧
      LaneFailed (s.lane l) z s.now ∧ GrantedLane m k (seedOf c.origin c.tag.toNat) s.now x y := by
  obtain ⟨z, a, b, e, released, failed, _⟩ := releaseLane_quarantined (s := stopEngine (engineOf (.carriage m)) s) own owner
  obtain ⟨x, y, granted, given⟩ := grantLane_eq (m := m) k (State.setCar_car
    (releaseLane l (.carriage m) (quarantineLane l (stopEngine (engineOf (.carriage m)) s))) m
    (some { c with lane := none, connectDeadline := none, regrants := c.regrants + 1 }))
  refine ⟨z, x, y, a, b, (laneFails_grants car lane masked few rfl ?_ ?_).trans (granted.trans ?_), failed, ?_⟩
  · rw [released]; exact car
  · rw [released]
    exact (chooseLane_set (l := l) (x := z) mask (by rfl) (by rfl) (LaneEntry.not_free_of_owner owner)
      (LaneEntry.not_free_of_busy failed.occupancy)).trans free
  · rw [released]
    simp only [State.setCar, stopEngine, State.updEngine, PerEngine.set_set, PerMod.set_set]
    rfl
  · rw [released] at given; exact given

end

/-- Settles O42. -/
theorem connectDeadlineRegrants : Obligations.ConnectDeadlineRegrants := by
  unfold Obligations.ConnectDeadlineRegrants
  intro t d m l k c mask s r car state deadline due lane masked few own owner free
  have other : l ≠ k := by
    rintro rfl
    exact Bool.false_ne_true ((LaneEntry.not_free_of_owner owner).symm.trans (chooseLane_some free).2.2)
  have reached : connectExpires m (startEvent t s) = laneFails m (startEvent t s) := by
    have car' : (startEvent t s).car m = some c := car
    unfold connectExpires
    rw [car']
    exact if_pos ⟨state, startEvent_due deadline due⟩
  obtain ⟨z, x, y, a, b, fails, failed, given⟩ := laneFails_regrants (s := startEvent t s) car lane masked few own owner free
  have done := exec_handsOver (c := .connectDeadline t m) rfl r (reached.trans fails) ⟨rfl, rfl, rfl, rfl, rfl, rfl⟩
  rw [handOver_form] at done
  have entry : ((s.lanes.set l z).set k x).get l = z := by
    rw [PerLane.get_set_ne _ _ _ _ other, PerLane.get_set_self]
  have granted : ({ c with regrants := c.regrants + 1 } : Carriage).grantedLane k (max s.now t) =
      { c with lane := some k, regrants := c.regrants + 1, ownPassed := false, originPassed := false,
               connectDeadline := some (max s.now t + ms 1000) } := by
    unfold Carriage.grantedLane
    rw [← state]
    rfl
  refine ⟨_, done, ?_, (PerMod.get_set_self _ _ _).trans (congrArg some granted), (congrArg LaneEntry.occupancy entry).trans failed.occupancy,
    (congrArg LaneEntry.owner entry).trans failed.owner, ?_,
    (congrArg LaneEntry.occupancy (PerLane.get_set_self _ _ _)).trans given.occupancy,
    (congrArg LaneEntry.owner (PerLane.get_set_self _ _ _)).trans given.owner,
    (handOver_congr _ (by rfl) (by rfl) (by rfl)).1⟩
  · simp only [State.car, State.lane, State.engine, PerMod.get_set_self, PerLane.get_set_self, PerEngine.get_set_self]
    rw [startEvent_lanes, entry]
    rfl
  · obtain ⟨q, until_, long⟩ := failed.quarantine
    exact ⟨q, (congrArg LaneEntry.quarantineUntil entry).trans until_, long⟩

end Sys2Proof.Machine

/-! # The removal of a carriage (05, 5.5) -/

namespace Sys2Proof.Machine

/-! ## What settling keeps (R108, R109) -/

/-- What a module keeps as it settles: all but its state, its selection and its order in flight. -/
structure Settled (m : Mod) (r x : Module) (o : List Output) : Prop where
  link : x.link = r.link
  call : x.callInProgress = r.callInProgress
  table : x.table = r.table
  power : x.power = r.power
  cycles : x.powerCycles = r.powerCycles
  quiet : Output.order m .hangup 0 ∉ o

theorem Settled.same (m : Mod) (r : Module) : Settled m r r [] := ⟨rfl, rfl, rfl, rfl, rfl, by simp⟩

section
variable {m : Mod} {s : State} {r : Module} {out : List Output}

/-- R108: a refresh scan. -/
theorem refreshCheck_settled : ∃ x o, refreshCheck m (s.withMod m r out) = s.withMod m x (out ++ o) ∧ Settled m r x o := by
  unfold refreshCheck
  dsimp only
  split
  · exact ⟨_, _, startScan_withMod s m r out _, rfl, rfl, rfl, rfl, rfl, by simp⟩
  · exact ⟨r, [], by rw [List.append_nil], Settled.same m r⟩

/-- R109: settling by its case. -/
theorem settle_settled : ∃ x o, settle m (s.withMod m r out) = s.withMod m x (out ++ o) ∧ Settled m r x o := by
  have stays : ∃ x o, s.withMod m r out = s.withMod m x (out ++ o) ∧ Settled m r x o :=
    ⟨r, [], by rw [List.append_nil], Settled.same m r⟩
  unfold settle
  dsimp only
  split
  · split
    · unfold enterReady
      split
      · exact stays
      · rw [State.updMod_withMod]
        obtain ⟨x, o, run, settled⟩ := refreshCheck_settled (m := m) (s := s) (r := { r with state := .ready, rescanDue := none })
          (out := out)
        exact ⟨x, o, run, settled.link, settled.call, settled.table, settled.power, settled.cycles, settled.quiet⟩
    · exact ⟨_, _, startSelect_withMod s m r out _, rfl, rfl, rfl, rfl, rfl, by simp⟩
    · unfold enterNoService
      rw [State.updMod_withMod]
      refine ⟨_, [], by rw [List.append_nil], ?_, ?_, ?_, ?_, ?_, by simp⟩
      all_goals split <;> rfl
  · exact stays

end

/-! ## The lane and the engine of a carriage (R126, R131) -/

/-- R97: what a carriage leaves of its lane as it gives it up. -/
structure LaneGivenUp (m : Mod) (c : Carriage) (s : State) (lanes : PerLane LaneEntry) (ns : List Notice) : Prop where
  without : c.lane = none → lanes = s.lanes ∧ ns = []
  own : ∀ l, c.lane = some l → (s.lane l).occupancy = .own → (s.lane l).owner = some (.carriage m) →
    ns = [] ∧ ∃ g, lanes = s.lanes.set l ((s.lane l).released s.now g)
  few : ns.length ≤ 1
  quiet : ∀ n ∈ ns, n.quiet = true

/-- R131: a stopped engine has no user. -/
theorem Engine.stopped_user (x : Engine) : x.stopped.user = none := rfl

/-- R97, steps 2 and 3: the engine of a carriage is stopped and its lane released. -/
theorem releaseCarriageLane_eq {m : Mod} {c : Carriage} {s : State} (car : s.car m = some c) :
    ∃ lanes a b e ns, releaseCarriageLane m (stopEngine (engineOf (.carriage m)) s) =
      { s with
        lanes := lanes, csw := { s.csw with gapA := a, gapB := b }, engines := s.engines.set (engineOf (.carriage m)) e,
        carriages := s.carriages.set m (some { c with lane := none }), notices := s.notices ++ ns } ∧
      LaneGivenUp m c s lanes ns ∧ e.user = none := by
  have car' : (stopEngine (engineOf (.carriage m)) s).car m = some c := car
  unfold releaseCarriageLane
  rw [car']
  dsimp only
  cases lane : c.lane with
  | none =>
    have same : ({ c with lane := none } : Carriage) = c := by cases c; cases lane; rfl
    refine ⟨s.lanes, s.csw.gapA, s.csw.gapB, (s.engine (engineOf (.carriage m))).stopped, [], ?_,
      ⟨fun _ => ⟨rfl, rfl⟩, ?_, by simp, by simp⟩, rfl⟩
    · have kept : s.carriages.set m (some { c with lane := none }) = s.carriages := by
        rw [same, ← car]; exact PerMod.set_get_self _ _
      rw [kept, List.append_nil]
      rfl
    · intro l held
      rw [lane] at held; cases held
  | some l =>
    obtain ⟨x, a, b, e, ns, released, by_⟩ := releaseLane_eq l (.carriage m) (stopEngine (engineOf (.carriage m)) s)
    have stopped : (stopEngine (engineOf (.carriage m)) s).engine (engineOf (.carriage m)) =
        (s.engine (engineOf (.carriage m))).stopped := PerEngine.get_set_self _ _ _
    refine ⟨s.lanes.set l x, a, b, e, ns, ?_, ⟨?_, ?_, by_.few, by_.quiet⟩, ?_⟩
    · have carried : (releaseLane l (.carriage m) (stopEngine (engineOf (.carriage m)) s)).car m = some c := by
        rw [released]; exact car
      dsimp only
      rw [State.updCar_eq carried, released]
      simp only [State.setCar, stopEngine, State.updEngine, PerEngine.set_set]
    · intro without
      rw [lane] at without; cases without
    · intro k held own owner
      obtain rfl : l = k := Option.some.inj (lane.symm.trans held)
      obtain ⟨none, g, entry⟩ := by_.own own owner
      exact ⟨none, g, congrArg _ entry⟩
    · rcases by_.engine with same | same
      · rw [same, stopped]; rfl
      · rw [same]; rfl

/-! ## The module of a carriage that is removed (R97, R118) -/

section
variable {m : Mod} {s : State}

/-- R118: a module without a carriage. -/
def Module.freed (r : Module) : Module := { r with link := false, pendingOrder := none }

theorem clearLink_eq : clearLink m s = settle m (s.withMod m (s.mod m).freed s.out) := rfl

/-- R97, step 5: a call in progress is ended with HANGUP. -/
theorem clearLink_hangsUp (call : (s.mod m).callInProgress = true) :
    clearLink m (endModuleCall m s) =
      s.withMod m ((s.mod m).hangsUp s.now).freed (s.out ++ [.order m .hangup 0]) := by
  have ended : endModuleCall m s = orderHangup m s := if_pos call
  rw [ended, orderHangup_eq, clearLink_eq, State.withMod_mod, State.withMod_withMod]
  exact settle_not (by simp [Module.canSettle, Module.freed, Module.hangsUp, Module.ordered])

/-- R118: without a call in progress the module settles. -/
theorem clearLink_settles (call : (s.mod m).callInProgress = false) :
    ∃ x o, clearLink m (endModuleCall m s) = s.withMod m x (s.out ++ o) ∧ Settled m (s.mod m).freed x o := by
  have ended : endModuleCall m s = s := if_neg (by rw [call]; decide)
  rw [ended, clearLink_eq]
  exact settle_settled

/-- R118: a module without power does not settle. -/
theorem clearLink_off (call : (s.mod m).callInProgress = false) (off : (s.mod m).power = false) :
    clearLink m (endModuleCall m s) = s.withMod m (s.mod m).freed s.out := by
  have ended : endModuleCall m s = s := if_neg (by rw [call]; decide)
  rw [ended, clearLink_eq]
  refine settle_not ?_
  have off' : (s.mod m).freed.power = false := off
  unfold Module.canSettle
  rw [off']; rfl

end

/-! ## The removal (R97) -/

/-- R148: a prompt that ends gives signals only. -/
theorem stopPrompt_orders {m : Mod} {k : OrderKind} {code : Code} {s : State} (p : PlayerId) (which : Option Prompt)
    (not : Output.order m k code ∉ s.out) : Output.order m k code ∉ (stopPrompt p which s).out := by
  unfold stopPrompt endPrompt signalOwner
  dsimp only
  split
  · split
    · simpa [State.emit, setOverlay, idlePlayer, State.updCsw] using not
    · exact not
  · exact not

/-- R97: what a carriage leaves as it is removed. -/
structure Removed (m : Mod) (c : Carriage) (s u : State) : Prop where
  form : u = { s with
    modules := s.modules.set m (u.mod m), carriages := s.carriages.set m none, csw := u.csw, lanes := u.lanes,
    engines := s.engines.set (engineOf (.carriage m)) (u.engine (engineOf (.carriage m))), notices := u.notices,
    out := u.out }
  lanes : ∃ ns, u.notices = s.notices ++ ns ∧ LaneGivenUp m c s u.lanes ns
  user : (u.engine (engineOf (.carriage m))).user = none
  routes : ∀ d, (u.csw.slot d).owner ≠ some (.carriage m)
  hangsUp : (s.mod m).callInProgress = true →
    u.mod m = ((s.mod m).hangsUp s.now).freed ∧ Output.order m .hangup 0 ∈ u.out
  settles : (s.mod m).callInProgress = false →
    (∃ o, Settled m (s.mod m).freed (u.mod m) o) ∧ (Output.order m .hangup 0 ∉ s.out → Output.order m .hangup 0 ∉ u.out)
  off : (s.mod m).callInProgress = false → (s.mod m).power = false → u.mod m = (s.mod m).freed

/-- R97: a removed carriage leaves its module without a link. -/
theorem Removed.link {m : Mod} {c : Carriage} {s u : State} (removed : Removed m c s u) : (u.mod m).link = false := by
  cases call : (s.mod m).callInProgress with
  | true => rw [(removed.hangsUp call).1]; rfl
  | false =>
    obtain ⟨⟨o, settled⟩, _⟩ := removed.settles call
    exact settled.link

/-- R97: the module of a carriage that is removed, whatever the state in which its link is cleared. -/
theorem clearLink_removes {m : Mod} {c : Carriage} {s : State} {lanes : PerLane LaneEntry} {w : Switch} {e : Engine}
    {y : Option Carriage} {ns : List Notice} {out : List Output} (given : LaneGivenUp m c s lanes ns) (user : e.user = none)
    (routes : ∀ d, (w.slot d).owner ≠ some (.carriage m))
    (orders : Output.order m .hangup 0 ∉ s.out → Output.order m .hangup 0 ∉ out) (v : State)
    (before : v = { s with
      lanes := lanes, csw := w, engines := s.engines.set (engineOf (.carriage m)) e, carriages := s.carriages.set m y,
      notices := s.notices ++ ns, out := out }) :
    Removed m c s ((clearLink m (endModuleCall m v)).setCar m none) := by
  have same : v.mod m = s.mod m := by rw [before]; rfl
  -- the state left, by the module and the outputs that clearing the link leaves
  have leaves {x : Module} {o : List Output} (run : clearLink m (endModuleCall m v) = v.withMod m x o)
      (hangsUp : (s.mod m).callInProgress = true → x = ((s.mod m).hangsUp s.now).freed ∧ Output.order m .hangup 0 ∈ o)
      (settles : (s.mod m).callInProgress = false →
        (∃ q, Settled m (s.mod m).freed x q) ∧ (Output.order m .hangup 0 ∉ s.out → Output.order m .hangup 0 ∉ o))
      (off : (s.mod m).callInProgress = false → (s.mod m).power = false → x = (s.mod m).freed) :
      Removed m c s ((clearLink m (endModuleCall m v)).setCar m none) := by
    rw [run, before]
    have entry : (s.modules.set m x).get m = x := PerMod.get_set_self _ _ _
    have engine : (s.engines.set (engineOf (.carriage m)) e).get (engineOf (.carriage m)) = e := PerEngine.get_set_self _ _ _
    refine ⟨?_, ⟨ns, rfl, given⟩, (congrArg Engine.user engine).trans user, routes, fun call => ?_, fun call => ?_,
      fun call off' => entry.trans (off call off')⟩
    · simp only [State.setCar, State.withMod, State.mod, State.engine, PerMod.set_set, entry, engine]
    · exact ⟨entry.trans (hangsUp call).1, (hangsUp call).2⟩
    · obtain ⟨⟨q, settled⟩, quiet⟩ := settles call
      refine ⟨⟨q, ?_⟩, quiet⟩
      rwa [← entry] at settled
  have now : v.now = s.now := by rw [before]
  have outs : v.out = out := by rw [before]
  rw [← same] at leaves
  cases call : (v.mod m).callInProgress with
  | true =>
    refine leaves (clearLink_hangsUp call) (fun _ => ⟨by rw [now], by simp⟩) (fun h => ?_) (fun h => ?_)
    all_goals exact absurd (h.symm.trans call) Bool.false_ne_true
  | false =>
    cases power : (v.mod m).power with
    | false =>
      refine leaves (clearLink_off call power) (fun h => absurd (call.symm.trans h) Bool.false_ne_true)
        (fun _ => ⟨⟨[], Settled.same _ _⟩, by rw [outs]; exact orders⟩) (fun _ _ => rfl)
    | true =>
      obtain ⟨x, o, run, settled⟩ := clearLink_settles call
      refine leaves run (fun h => absurd (call.symm.trans h) Bool.false_ne_true) (fun _ => ⟨⟨o, settled⟩, fun not => ?_⟩)
        (fun _ h => absurd (h.symm.trans power) Bool.false_ne_true)
      rw [outs]
      exact fun mem => (List.mem_append.mp mem).elim (orders not) settled.quiet

/-- R97: the removal of a carriage. -/
theorem removeCarriage_removed {m : Mod} {c : Carriage} {s : State} (car : s.car m = some c) :
    Removed m c s (removeCarriage m s) := by
  obtain ⟨lanes, a, b, e, ns, released, given, user⟩ := releaseCarriageLane_eq car
  have orders := stopPrompt_orders (m := m) (k := .hangup) (code := 0)
    (s := clearRoutes (.carriage m) (releaseCarriageLane m (stopEngine (engineOf (.carriage m)) s))) (modPlayer m)
    (some .holdLine)
  obtain ⟨w, x, stopped, ends, kept⟩ := stopPrompt_spec (modPlayer m) (some .holdLine)
    (clearRoutes (.carriage m) (releaseCarriageLane m (stopEngine (engineOf (.carriage m)) s)))
  rw [stopped] at orders
  refine clearLink_removes (w := w) (y := some { c with lane := none }) (out := x) given user (fun d => ?_) (fun not => orders ?_)
    (stopPrompt (modPlayer m) (some .holdLine)
      (clearRoutes (.carriage m) (releaseCarriageLane m (stopEngine (engineOf (.carriage m)) s)))) (stopped.trans ?_)
  · have gone := Switch.without_owner (.carriage m) (releaseCarriageLane m (stopEngine (engineOf (.carriage m)) s)).csw d
    cases plays : playerPlays (clearRoutes (.carriage m) (releaseCarriageLane m (stopEngine (engineOf (.carriage m)) s)))
      (modPlayer m) (some .holdLine) with
    | true => rw [((ends plays).route d).2.1]; exact gone
    | false => rw [(kept plays).1]; exact gone
  · rw [clearRoutes_eq, released]; exact not
  · rw [clearRoutes_eq, released]

end Sys2Proof.Machine

/-! # The ring limit and the end of the rejoin window (05, 5.2, 5.4) -/

namespace Sys2Proof.Machine

/-! ## The ring limit (R88) -/

/-- R111: a network of a linked module is penalised. -/
theorem penalise_linked {m : Mod} {s : State} {r : Module} {out : List Output} (code : Code) (link : r.link = true) :
    penalise m code (s.withMod m r out) =
      s.withMod m { r with table := penaliseNet r.table code (s.now + penaltyTime) } out := by
  unfold penalise
  rw [State.updMod_withMod]
  exact settle_linked link

/-- R95: a record that does not wait moves its own state. -/
theorem Carriage.setPhase_of_ringing {c : Carriage} (p : ResumeState) (state : c.state = .ringing) :
    c.setPhase p = { c with state := p.state } := by
  unfold Carriage.setPhase Carriage.waiting; rw [state]; rfl

/-- R88: an attempt has rung to its limit. -/
theorem ringExpires_due {m : Mod} {c : Carriage} {code : Code} {s : State} {d : Time} (car : s.car m = some c)
    (state : c.state = .ringing) (deadline : c.ringDeadline = some d) (due : d ≤ s.now) (network : c.network = some code)
    (link : (s.mod m).link = true) :
    ringExpires m s =
      (s.setCar m (some { c with state := .dialing, ringDeadline := none, ringHangup := true })).withMod m
        (({ s.mod m with table := penaliseNet (s.mod m).table code (s.now + penaltyTime) } : Module).hangsUp s.now)
        (s.out ++ [.order m .hangup 0]) := by
  have due' : s.due c.ringDeadline = true := by rw [deadline]; exact decide_eq_true due
  have penalised : penalise m code s =
      s.withMod m { s.mod m with table := penaliseNet (s.mod m).table code (s.now + penaltyTime) } s.out :=
    (congrArg (penalise m code) (State.withMod_self s m).symm).trans (penalise_linked code link)
  have car' : (s.withMod m { s.mod m with table := penaliseNet (s.mod m).table code (s.now + penaltyTime) } s.out).car m =
      some c := car
  have hangs : ringExpires m s = orderHangup m ((penalise m code s).updCar m fun c =>
      { c.setPhase .dialing with ringDeadline := none, ringHangup := true }) := by
    unfold ringExpires
    rw [car]
    dsimp only
    rw [if_pos due', network]
  rw [hangs, penalised, State.updCar_eq car', Carriage.setPhase_of_ringing _ state]
  exact orderHangup_withMod (s.setCar m _) m _ s.out

/-- R59: a module that hangs up is not grantable. -/
theorem Module.hangsUp_grantable (r : Module) (now : Time) : (r.hangsUp now).grantable = false :=
  Module.grantable_of_state (by show ModuleState.hangingUp ≠ _; decide) (by show ModuleState.hangingUp ≠ _; decide)

/-- Settles O43. -/
theorem ringLimitHangsUp : Obligations.RingLimitHangsUp := by
  unfold Obligations.RingLimitHangsUp
  intro t d m code c s r car state deadline due network link
  have run := ringExpires_due (s := startEvent t s) car state deadline due network link
  exact congrArg Host.Outcome.next (event_sync r run rfl
    (freedNotices_set (s0 := startEvent t s) rfl fun _ => by exact Module.grantable_of_state (by simp) (by simp)))

/-! ## The rejoin window (R94) -/

/-- R97: the lane that a carriage has given up, OWN. -/
theorem LaneGivenUp.entry {m : Mod} {c : Carriage} {s : State} {lanes : PerLane LaneEntry} {ns : List Notice} {l : Lane}
    (given : LaneGivenUp m c s lanes ns) (lane : c.lane = some l) (own : (s.lane l).occupancy = .own)
    (owner : (s.lane l).owner = some (.carriage m)) :
    lanes = s.lanes.set l
      { s.lane l with
        occupancy := .busy, owner := none, supervised := false, gapStart := (lanes.get l).gapStart,
        quietSince := if (s.lane l).carrierA = true ∨ (s.lane l).carrierB = true then none else some s.now } := by
  obtain ⟨_, g, rfl⟩ := given.own l lane own owner
  rw [PerLane.get_set_self]
  rfl

/-- R126: a carriage that holds no lane, or an OWN one, gives no notice as it gives it up. -/
theorem LaneGivenUp.noNotice {m : Mod} {c : Carriage} {s : State} {lanes : PerLane LaneEntry} {ns : List Notice}
    (given : LaneGivenUp m c s lanes ns)
    (held : ∀ l, c.lane = some l → (s.lane l).occupancy = .own ∧ (s.lane l).owner = some (.carriage m)) : ns = [] := by
  cases lane : c.lane with
  | none => exact (given.without lane).2
  | some l => exact (given.own l lane (held l lane).1 (held l lane).2).1

/-- R94: a record as it enters CLEARING. -/
def Carriage.clears (c : Carriage) : Carriage :=
  { c with state := .clearing, lane := none, rejoinGrant := false, connectDeadline := none, rejoinDeadline := none,
           ringDeadline := none, resume := none }

/-- R94: a waiting record with a call in progress enters CLEARING. -/
theorem clearWaiting_calls {m : Mod} {c : Carriage} {s : State} (car : s.car m = some c)
    (call : (s.mod m).callInProgress = true) :
    ∃ lanes w e ns r out, clearWaiting m s =
      { s with
        lanes := lanes, csw := w, engines := s.engines.set (engineOf (.carriage m)) e,
        carriages := s.carriages.set m (some c.clears), modules := s.modules.set m r, notices := s.notices ++ ns,
        out := out } ∧
      LaneGivenUp m c s lanes ns ∧ e.user = none ∧
      ((s.mod m).flying .hangup = false → r = (s.mod m).hangsUp s.now ∧ Output.order m .hangup 0 ∈ out) ∧
      ((s.mod m).flying .hangup = true →
        r = s.mod m ∧ (Output.order m .hangup 0 ∉ s.out → Output.order m .hangup 0 ∉ out)) := by
  obtain ⟨lanes, a, b, e, ns, released, given, user⟩ := releaseCarriageLane_eq car
  have orders := stopPrompt_orders (m := m) (k := .hangup) (code := 0)
    (s := releaseCarriageLane m (stopEngine (engineOf (.carriage m)) s)) (modPlayer m) (some .holdLine)
  obtain ⟨w, x, stopped, _, _⟩ := stopPrompt_spec (modPlayer m) (some .holdLine)
    (releaseCarriageLane m (stopEngine (engineOf (.carriage m)) s))
  rw [stopped, released] at orders
  rw [released] at stopped
  -- the state in which the call is ended
  have cleared : (stopPrompt (modPlayer m) (some .holdLine)
      (releaseCarriageLane m (stopEngine (engineOf (.carriage m)) s))).updCar m (fun c =>
        { c with state := .clearing, rejoinGrant := false, connectDeadline := none, rejoinDeadline := none,
                 ringDeadline := none, resume := none }) =
      { s with
        lanes := lanes, csw := w, engines := s.engines.set (engineOf (.carriage m)) e,
        carriages := s.carriages.set m (some c.clears), notices := s.notices ++ ns, out := x } := by
    rw [released, stopped]
    refine (State.updCar_eq (c := { c with lane := none }) (by exact PerMod.get_set_self _ _ _) _).trans ?_
    simp only [State.setCar, PerMod.set_set]
    rfl
  have waits : clearWaiting m s =
      if (s.mod m).flying .hangup then
        { s with
          lanes := lanes, csw := w, engines := s.engines.set (engineOf (.carriage m)) e,
          carriages := s.carriages.set m (some c.clears), notices := s.notices ++ ns, out := x }
      else endModuleCall m
        { s with
          lanes := lanes, csw := w, engines := s.engines.set (engineOf (.carriage m)) e,
          carriages := s.carriages.set m (some c.clears), notices := s.notices ++ ns, out := x } := by
    unfold clearWaiting
    rw [if_pos call]
    dsimp only
    rw [cleared]
    rfl
  cases flight : (s.mod m).flying .hangup with
  | true =>
    refine ⟨lanes, w, e, ns, s.mod m, x, waits.trans ((if_pos flight).trans ?_), given, user, fun h => ?_,
      fun _ => ⟨rfl, orders⟩⟩
    · rw [State.mod, PerMod.set_get_self]
    · cases h
  | false =>
    refine ⟨lanes, w, e, ns, (s.mod m).hangsUp s.now, x ++ [.order m .hangup 0],
      waits.trans ((if_neg (by rw [flight]; decide)).trans ((if_pos call).trans (orderHangup_eq _ m))), given, user,
      fun _ => ⟨rfl, by simp⟩, fun h => ?_⟩
    cases h

/-- R94: the rejoin window ends; a rejoin GRANTED is told RELEASE(LANE-LOST). -/
theorem rejoinExpires_due {m : Mod} {c : Carriage} {s : State} {d : Time} (car : s.car m = some c)
    (waits : c.state = .awaitRejoin ∨ (c.state = .granted ∧ c.rejoinGrant = true)) (deadline : c.rejoinDeadline = some d)
    (due : d ≤ s.now) :
    ∃ b n, rejoinExpires m s = clearWaiting m { s with band := b, counters := n } ∧
      b = (if c.state = .granted then (handOver (releaseFrame c.origin c.tag .laneLost) s).band else s.band) ∧
      b.dupFault = s.band.dupFault := by
  have due' : s.due c.rejoinDeadline = true := by rw [deadline]; exact decide_eq_true due
  have waiting : c.waiting = true := by
    unfold Carriage.waiting
    rcases waits with h | ⟨h, rejoin⟩
    · rw [h]; rfl
    · rw [h, rejoin]; rfl
  have reached : rejoinExpires m s =
      if c.state = .granted then clearWaiting m (handOver (releaseFrame c.origin c.tag .laneLost) s) else clearWaiting m s := by
    unfold rejoinExpires
    rw [car]
    exact if_pos ⟨waiting, due'⟩
  rw [reached]
  split
  · exact ⟨_, _, congrArg (clearWaiting m) (handOver_form _ s), rfl, handOver_dupFault _ _⟩
  · exact ⟨s.band, s.counters, rfl, rfl, rfl⟩

/-- Settles O44. -/
theorem rejoinWindowEnds : Obligations.RejoinWindowEnds := by
  unfold Obligations.RejoinWindowEnds
  intro t d m c s r car waits deadline due held
  obtain ⟨b, n, reached, told, dup⟩ := rejoinExpires_due (s := startEvent t s) car waits deadline due
  have told' : b = if c.state = .granted then (handOver (releaseFrame c.origin c.tag .laneLost) s).band else s.band := by
    rw [told, (handOver_congr _ (by rfl) (by rfl) (by rfl) :
      (handOver (releaseFrame c.origin c.tag .laneLost) (startEvent t s)).band =
        (handOver (releaseFrame c.origin c.tag .laneLost) s).band ∧ _).1]
    rfl
  refine ⟨fun call => ?_, fun call calm => ?_⟩
  · obtain ⟨lanes, w, e, ns, x, out, clears, given, user, hangsUp, flies⟩ :=
      clearWaiting_calls (s := { startEvent t s with band := b, counters := n }) car call
    obtain rfl := given.noNotice held
    have freed : freedNotices (startEvent t s) (rejoinExpires m (startEvent t s)) = [] := by
      rw [reached, clears]
      refine freedNotices_set rfl fun not => ?_
      cases flight : (s.mod m).flying .hangup with
      | true => rw [(flies flight).1]; exact not
      | false => rw [(hangsUp flight).1]; exact Module.hangsUp_grantable _ _
    rw [reached, clears] at freed
    obtain ⟨y, form⟩ := event_syncForm r (reached.trans clears) rfl freed (offeringFlag_congr rfl rfl dup)
    have car' : (s.modules.set m x).get m = x := PerMod.get_set_self _ _ _
    refine ⟨_, congrArg Host.Outcome.next form, ⟨?_, ?_, fun lane => (given.without lane).1,
      fun l lane => given.entry lane (held l lane).1 (held l lane).2⟩, PerMod.get_set_self _ _ _, fun flight => ?_,
      fun flight => ?_⟩
    · simp only [State.updSched, State.car, State.mod, PerMod.get_set_self, List.append_nil]
      subst told'
      rfl
    · exact (congrArg Engine.user (PerEngine.get_set_self _ _ _)).trans user
    · obtain ⟨rfl, ordered⟩ := hangsUp flight
      exact ⟨congrArg Module.state car', (congrArg (Module.flying · .hangup) car').trans rfl, ordered⟩
    · obtain ⟨same, quiet⟩ := flies flight
      exact ⟨car'.trans same, quiet (by simp [startEvent])⟩
  · have removed := removeCarriage_removed (m := m) (c := c) (s := { startEvent t s with band := b, counters := n }) car
    have clears : clearWaiting m { startEvent t s with band := b, counters := n } =
        removeCarriage m { startEvent t s with band := b, counters := n } :=
      if_neg fun h => Bool.false_ne_true (call.symm.trans h)
    obtain ⟨ns, notices, given⟩ := removed.lanes
    have run := reached.trans (clears.trans removed.form)
    have form := event_calm_form r run calm (by rw [notices]; exact given.quiet)
      (by rw [notices]; exact Nat.le_trans given.few (by decide)) (offeringFlag_congr rfl rfl dup)
    refine ⟨_, congrArg Host.Outcome.next form, ⟨?_, ?_, fun lane => (given.without lane).1,
      fun l lane => given.entry lane (held l lane).1 (held l lane).2⟩, PerMod.get_set_self _ _ _, ?_⟩
    · subst told'
      simp only [State.car, State.mod, PerMod.get_set_self]
      rfl
    · exact (congrArg Engine.user (PerEngine.get_set_self _ _ _)).trans removed.user
    · exact (congrArg Module.link (PerMod.get_set_self _ _ _)).trans removed.link

end Sys2Proof.Machine

/-! # Dial attempts and the ends of a carried call (05, 5.2, 5.5) -/

namespace Sys2Proof.Machine

/-! ## Dial attempts (R85, R87, R115) -/

/-- R85: the stage under which a network is named. -/
def Carriage.namedStage (c : Carriage) : Stage := if c.tried.isEmpty then .dialing else .reselecting

/-- R85: the record with one more network tried. -/
def Carriage.tries (c : Carriage) (code : Code) : Carriage :=
  { c with tried := c.tried ++ [code], network := some code, lastStage := some c.namedStage }

section
variable {m : Mod} {c : Carriage} {s : State} {r : Module} {out : List Output} {code : Code}

/-- R85: the network of an attempt is named to a PEER origin. -/
theorem networkNamed_peer (car : s.car m = some c) (peer : c.kind = .peer) :
    networkNamed m code s =
      handOver (progressFrame c.origin c.tag (oct (stageCode c.namedStage)) code) (s.setCar m (some (c.tries code))) := by
  unfold networkNamed
  rw [car]
  dsimp only
  rw [stageReport_peer _ _ _ peer, State.updCar_eq car]
  rfl

/-- R85, R115: the attempt is sent when no order is in flight. -/
theorem startAttempt_free (car : s.car m = some c) (flight : (s.mod m).inFlight = none) :
    startAttempt m s = dialNow m c.tried s := by
  unfold startAttempt
  rw [car]
  dsimp only
  rw [flight]
  rfl

/-- R115: the attempt dials on the network selected. -/
theorem dialNow_dial {tried : List Code} (choice : dialChoice r.table r.selected tried = .dial code) :
    dialNow m tried (s.withMod m r out) =
      networkNamed m code (s.withMod m (r.dials s.now) (out ++ [.order m .dial 0])) := by
  unfold dialNow
  rw [State.withMod_mod, choice]
  dsimp only
  rw [startDial_withMod]

/-- R115: the attempt selects another network first. -/
theorem dialNow_select {tried : List Code} (choice : dialChoice r.table r.selected tried = .select code) :
    dialNow m tried (s.withMod m r out) =
      networkNamed m code (s.withMod m (r.selects code s.now) (out ++ [.order m .select code])) := by
  unfold dialNow
  rw [State.withMod_mod, choice]
  dsimp only
  rw [startSelect_withMod]

/-- R87: no network is left to try. -/
theorem dialNow_impossible {tried : List Code} (choice : dialChoice r.table r.selected tried = .impossible) :
    dialNow m tried (s.withMod m r out) = endCarriage m .allNetworksFailed (s.withMod m r out) := by
  unfold dialNow
  rw [State.withMod_mod, choice]

/-- R97: the end of a PEER call is told, and the record is removed. -/
theorem endCarriage_peer {why : ReleaseReason} (car : s.car m = some c) (peer : c.kind = .peer) :
    endCarriage m why s = removeCarriage m (handOver (releaseFrame c.origin c.tag why) s) := by
  unfold endCarriage endReport
  rw [car]
  dsimp only
  rw [peer]

/-- R87, R111: a module after its network is penalised for a failed attempt, when one is named. -/
def Module.attemptPenalty (r : Module) (network : Option Code) (now : Time) : Module :=
  match network with
  | some code => { r with table := penaliseNet r.table code (now + penaltyTime) }
  | none => r

theorem Module.attemptPenalty_link (r : Module) (n : Option Code) (now : Time) : (r.attemptPenalty n now).link = r.link := by
  cases n <;> rfl
theorem Module.attemptPenalty_call (r : Module) (n : Option Code) (now : Time) :
    (r.attemptPenalty n now).callInProgress = r.callInProgress := by cases n <;> rfl

/-- R87: the record as its attempt has failed. -/
def Carriage.attemptOver (c : Carriage) : Carriage := { c with ringDeadline := none, ringHangup := false }

/-- R87: an attempt has failed; its network is penalised. -/
theorem attemptFailed_eq (car : s.car m = some c) (link : r.link = true) :
    attemptFailed m true (s.withMod m r out) =
      if c.tried.length < 3 then
        startAttempt m (((s.withMod m (r.attemptPenalty c.network s.now) out).setCar m (some c.attemptOver)).updCar m fun c => c.setPhase .dialing)
      else endCarriage m .allNetworksFailed
        ((s.withMod m (r.attemptPenalty c.network s.now) out).setCar m (some c.attemptOver)) := by
  have car' (x : Module) : (s.withMod m x out).car m = some c := car
  unfold attemptFailed
  rw [car']
  dsimp only
  cases network : c.network with
  | none => dsimp only; rw [State.updCar_eq (car' r)]; rfl
  | some code => dsimp only; rw [penalise_linked code link, State.updCar_eq (car' _)]; rfl

/-- R87: the third attempt has failed. -/
theorem attemptFailed_third (car : s.car m = some c) (peer : c.kind = .peer) (link : r.link = true)
    (third : c.tried.length = 3) :
    attemptFailed m true (s.withMod m r out) =
      removeCarriage m (handOver (releaseFrame c.origin c.tag .allNetworksFailed)
        ((s.withMod m (r.attemptPenalty c.network s.now) out).setCar m (some c.attemptOver))) := by
  rw [attemptFailed_eq car link, if_neg (by omega)]
  exact endCarriage_peer (c := c.attemptOver) (State.setCar_car _ _ _) peer

/-- R87: an attempt below the third has failed: the next one is asked for. -/
theorem attemptFailed_next (car : s.car m = some c) (link : r.link = true) (few : c.tried.length < 3)
    (network : c.network = some code) (state : c.state = .dialing ∨ c.state = .ringing) (flight : r.inFlight = none) :
    attemptFailed m true (s.withMod m r out) =
      dialNow m c.tried
        ((s.setCar m (some { c with state := .dialing, ringDeadline := none, ringHangup := false })).withMod m
          { r with table := penaliseNet r.table code (s.now + penaltyTime) } out) := by
  have phase : c.attemptOver.setPhase .dialing =
      { c with state := .dialing, ringDeadline := none, ringHangup := false } := by
    rcases state with h | h
    · exact Carriage.setPhase_of_dialing _ (by exact h)
    · exact Carriage.setPhase_of_ringing _ (by exact h)
  rw [attemptFailed_eq car link, if_pos few, State.updCar_eq (State.setCar_car _ _ _), State.setCar_setCar, phase]
  have penalised : r.attemptPenalty c.network s.now = { r with table := penaliseNet r.table code (s.now + penaltyTime) } := by
    rw [network]; rfl
  rw [penalised]
  exact startAttempt_free (c := { c with state := .dialing, ringDeadline := none, ringHangup := false })
    (State.setCar_car _ _ _) ((congrArg Module.inFlight (State.withMod_mod s m _ out)).trans flight)

end

/-! ## The ends of a call (R89, R116) -/

section
variable {m : Mod} {s : State} {r : Module} {out : List Output}

/-- R116: a module whose attempt has ended. -/
def Module.attemptOver (r : Module) : Module := { r with inFlight := none, progressDeadline := none, callInProgress := false }

/-- R116: an attempt of a carriage has ended before answer. -/
theorem attemptEnds_linked (link : r.link = true) :
    attemptEnds m (s.withMod m r out) = attemptFailed m true (s.withMod m r.attemptOver out) := by
  unfold attemptEnds
  dsimp only
  rw [State.updMod_withMod, State.withMod_mod]
  exact if_pos link

/-- R116: an attempt ends by REJECTED. -/
theorem rejectedReport_flying (dial : r.flying .dial = true) :
    rejectedReport m (s.withMod m r out) = attemptEnds m (s.withMod m r out) :=
  if_pos (by rw [State.withMod_mod]; exact dial)

/-- R116: an attempt ends by ENDED. -/
theorem endedReport_attempt (reason : Octet) (state : r.state = .dialing ∨ r.state = .ringing) :
    endedReport m reason (s.withMod m r out) = attemptEnds m (s.withMod m r out) := by
  unfold endedReport
  rw [State.withMod_mod]
  rcases state with h | h <;> rw [h]

/-- R116: a module whose call has ended. -/
def Module.callOver (r : Module) : Module := { r with inFlight := none, callInProgress := false }

/-- R116: a call of a carriage has ended after answer. -/
theorem endedReport_call (reason : Octet) (state : r.state = .inCall) (link : r.link = true) :
    endedReport m reason (s.withMod m r out) =
      carriageCallEnds m (callEndOf reason) (s.withMod m r.callOver out) := by
  unfold endedReport
  rw [State.withMod_mod, state]
  dsimp only
  unfold callEnds
  dsimp only
  rw [State.updMod_withMod, State.withMod_mod]
  exact if_pos link

variable {c : Carriage}

/-- R89: the far party has cleared. -/
theorem carriageCallEnds_farClear (car : s.car m = some c) (peer : c.kind = .peer) :
    carriageCallEnds m .farClear s = removeCarriage m (handOver (releaseFrame c.origin c.tag .farClear) s) := by
  unfold carriageCallEnds
  rw [car]
  exact endCarriage_peer car peer

/-- R89: the network has dropped the call, and is penalised. -/
theorem carriageCallEnds_netDrop (car : s.car m = some c) (peer : c.kind = .peer) (link : r.link = true) :
    carriageCallEnds m .netDrop (s.withMod m r out) =
      removeCarriage m (handOver (releaseFrame c.origin c.tag .netDrop)
        (s.withMod m (r.attemptPenalty c.network s.now) out)) := by
  have car' (x : Module) : (s.withMod m x out).car m = some c := car
  unfold carriageCallEnds
  rw [car']
  dsimp only
  cases c.network with
  | none => exact endCarriage_peer (car' r) peer
  | some code =>
    dsimp only
    rw [penalise_linked code link]
    exact endCarriage_peer (car' _) peer

end

/-! ## The event that removes a carriage -/

/-- R97: what is left of a carriage that has ended. -/
def CarriageGone (t : Time) (m : Mod) (c : Carriage) (s : State) (b : Band) (u : State) : Prop :=
  u = { startEvent t s with
        modules := s.modules.set m (u.mod m), carriages := s.carriages.set m none, csw := u.csw,
        lanes := u.lanes, engines := u.engines, band := u.band, counters := u.counters, sched := u.sched, out := u.out } ∧
    u.band = b ∧ (u.mod m).link = false ∧ (u.engine (engineOf (.carriage m))).user = none ∧
    (c.lane = none → u.lanes = s.lanes) ∧
    ∀ l, c.lane = some l → (s.lane l).occupancy = .own → (s.lane l).owner = some (.carriage m) →
      u.lanes = s.lanes.set l
        { s.lane l with
          occupancy := .busy, owner := none, supervised := false, gapStart := (u.lane l).gapStart,
          quietSince :=
            if (s.lane l).carrierA = true ∨ (s.lane l).carrierB = true then none else some (max s.now t) }

/-- R97: an event of a calm station that ends with the removal of a carriage, its module and the band changed before it. -/
theorem event_removed {t : Time} {op : State → State} {s : State} {m : Mod} {c : Carriage} {r : Module} {b : Band}
    {n : Counters} (reset : s.inReset = false) (calm : s.calm)
    (run : op (startEvent t s) = removeCarriage m { startEvent t s with
      modules := s.modules.set m r, carriages := s.carriages.set m (some c), band := b, counters := n })
    (dup : b.dupFault = s.band.dupFault) :
    ∃ v, Removed m c { startEvent t s with
        modules := s.modules.set m r, carriages := s.carriages.set m (some c), band := b, counters := n } v ∧
      event t op s = { v with notices := [], sched := (event t op s).sched } := by
  obtain ⟨v, left⟩ : ∃ v, removeCarriage m { startEvent t s with
      modules := s.modules.set m r, carriages := s.carriages.set m (some c), band := b, counters := n } = v := ⟨_, rfl⟩
  have removed := removeCarriage_removed (m := m) (c := c)
    (s := { startEvent t s with
      modules := s.modules.set m r, carriages := s.carriages.set m (some c), band := b, counters := n })
    (PerMod.get_set_self _ _ _)
  rw [left] at run removed
  obtain ⟨ns, notices, given⟩ := removed.lanes
  have form := removed.form
  have straps : v.straps = s.straps := (congrArg State.straps form).trans rfl
  have supply : v.supply = s.supply := (congrArg State.supply form).trans rfl
  have coc : v.coc = s.coc := (congrArg State.coc form).trans rfl
  have claims : v.claims = s.claims := (congrArg State.claims form).trans rfl
  have dup' : v.band.dupFault = s.band.dupFault := (congrArg (fun u : State => u.band.dupFault) form).trans dup
  have calm' : v.calm := ⟨claims.trans calm.1, by unfold State.waitsForCandidate; rw [coc]; exact calm.2⟩
  exact ⟨v, removed, event_calm_form reset run calm' (by rw [notices]; exact given.quiet)
    (by rw [notices]; exact Nat.le_trans given.few (by decide)) (offeringFlag_congr straps supply dup')⟩

/-- R97: what such an event leaves of the carriage and its module. -/
theorem event_removes {t : Time} {op : State → State} {s : State} {m : Mod} {c c' : Carriage} {r : Module} {b : Band}
    {n : Counters} (reset : s.inReset = false) (calm : s.calm) (lane : c'.lane = c.lane)
    (run : op (startEvent t s) = removeCarriage m { startEvent t s with
      modules := s.modules.set m r, carriages := s.carriages.set m (some c'), band := b, counters := n })
    (dup : b.dupFault = s.band.dupFault) :
    ∃ u, event t op s = u ∧ CarriageGone t m c s b u ∧
      ((r.callInProgress = true → u.mod m = (r.hangsUp (max s.now t)).freed ∧ Output.order m .hangup 0 ∈ u.out) ∧
      (r.callInProgress = false → (∃ o, Settled m r.freed (u.mod m) o) ∧ Output.order m .hangup 0 ∉ u.out)) := by
  obtain ⟨v, removed, ended⟩ := event_removed reset calm run dup
  obtain ⟨ns, notices, given⟩ := removed.lanes
  have hangsUp := removed.hangsUp
  have settles := removed.settles
  have entry : State.mod { startEvent t s with
      modules := s.modules.set m r, carriages := s.carriages.set m (some c'), band := b, counters := n } m = r :=
    PerMod.get_set_self _ _ _
  rw [entry] at hangsUp settles
  have form := removed.form
  simp only [PerMod.set_set] at form
  obtain rfl : v.band = b := (congrArg State.band form).trans rfl
  obtain rfl : v.counters = n := (congrArg State.counters form).trans rfl
  have engines : v.engines = (startEvent t s).engines.set (engineOf (.carriage m)) (v.engine (engineOf (.carriage m))) :=
    (congrArg State.engines form).trans rfl
  rw [← engines] at form
  refine ⟨_, ended, ⟨(congrArg (fun u : State => { u with notices := [], sched := (event t op s).sched }) form).trans rfl, rfl,
    removed.link, removed.user, fun none => (given.without (lane.trans none)).1,
    fun l held own owner => given.entry (lane.trans held) own owner⟩, fun call => hangsUp call, fun call => ?_⟩
  obtain ⟨settled, quiet⟩ := settles call
  exact ⟨settled, quiet (by simp [startEvent])⟩

end Sys2Proof.Machine

/-! # The ends of carried calls (05, 5.2, 5.5) -/

namespace Sys2Proof.Machine

/-- R97: an event of a calm station that tells the origin the end of its call and removes the carriage. -/
theorem event_tellsEnd {t : Time} {op : State → State} {s : State} {m : Mod} {c c' : Carriage} {r : Module} {f : Frame}
    (reset : s.inReset = false) (calm : s.calm) (lane : c'.lane = c.lane)
    (run : op (startEvent t s) =
      removeCarriage m (handOver f (((startEvent t s).withMod m r []).setCar m (some c')))) :
    ∃ u, event t op s = u ∧ CarriageGone t m c s (handOver f s).band u ∧
      (r.callInProgress = false → (∃ o, Settled m r.freed (u.mod m) o) ∧ Output.order m .hangup 0 ∉ u.out) := by
  have told : (handOver f (((startEvent t s).withMod m r []).setCar m (some c'))).band = (handOver f s).band :=
    (handOver_congr f (by rfl) (by rfl) (by rfl)).1
  rw [handOver_form, told] at run
  obtain ⟨u, ended, gone, _, settles⟩ := event_removes reset calm lane run (handOver_dupFault f s)
  exact ⟨u, ended, gone, settles⟩

/-- A record as it stands in its slot. -/
theorem State.setCar_self {s : State} {m : Mod} {c : Carriage} (car : s.car m = some c) : s.setCar m (some c) = s := by
  rw [← car]
  show { s with carriages := s.carriages.set m (s.carriages.get m) } = s
  rw [PerMod.set_get_self]

section
variable {t : Time} {m : Mod} {c : Carriage} {s : State} {op : State → State}

/-- R89, R97: the same for a record that has not changed. -/
theorem event_tellsCallEnd {r : Module} {f : Frame} (reset : s.inReset = false) (calm : s.calm) (car : s.car m = some c)
    (noCall : r.callInProgress = false)
    (run : op (startEvent t s) = removeCarriage m (handOver f ((startEvent t s).withMod m r []))) :
    ∃ u, event t op s = u ∧ CarriageGone t m c s (handOver f s).band u ∧ ∃ o, Settled m r.freed (u.mod m) o := by
  rw [← State.setCar_self (s := (startEvent t s).withMod m r []) car] at run
  obtain ⟨u, ended, gone, settles⟩ := event_tellsEnd (c := c) reset calm rfl run
  exact ⟨u, ended, gone, (settles noCall).1⟩

/-- R87: the third failed attempt ends the call. -/
theorem event_attemptFailed_third {r : Module} (reset : s.inReset = false) (calm : s.calm) (car : s.car m = some c)
    (peer : c.kind = .peer) (link : r.link = true) (noCall : r.callInProgress = false) (third : c.tried.length = 3)
    (run : op (startEvent t s) = attemptFailed m true ((startEvent t s).withMod m r [])) :
    ∃ u, event t op s = u ∧ CarriageGone t m c s (handOver (releaseFrame c.origin c.tag .allNetworksFailed) s).band u ∧
      (u.mod m).callInProgress = false := by
  have failed := attemptFailed_third (s := startEvent t s) (out := []) car peer link third
  obtain ⟨u, ended, gone, settles⟩ := event_tellsEnd (c' := c.attemptOver) reset calm rfl (run.trans failed)
  obtain ⟨⟨o, settled⟩, _⟩ := settles ((Module.attemptPenalty_call _ _ _).trans noCall)
  exact ⟨u, ended, gone, settled.call.trans ((Module.attemptPenalty_call _ _ _).trans noCall)⟩

/-- R85, R87: the next network of an attempt is named. -/
theorem event_names {c' : Carriage} {r : Module} {out : List Output} {code : Code} (reset : s.inReset = false)
    (peer : c'.kind = .peer) (link : r.link = true)
    (run : op (startEvent t s) =
      networkNamed m code (((startEvent t s).setCar m (some c')).withMod m r out)) :
    ∃ u, event t op s = u ∧
      u = { startEvent t s with
            modules := s.modules.set m r, carriages := s.carriages.set m (some (c'.tries code)), band := u.band,
            counters := u.counters, sched := u.sched, out := out } ∧
      u.band = (handOver (progressFrame c'.origin c'.tag (oct (stageCode c'.namedStage)) code) s).band := by
  have named := networkNamed_peer (code := code) (s := ((startEvent t s).setCar m (some c')).withMod m r out) (m := m) (c := c')
    (State.setCar_car _ _ _) peer
  obtain ⟨x, form⟩ := event_syncForm reset (run.trans named) (handOver_notices _ _)
    (freedNotices_set (s0 := startEvent t s) (m := m) (r := r) (handOver_modules _ _) fun _ => Module.grantable_of_link link)
    (offeringFlag_congr (handOver_straps _ _) (handOver_supply _ _) (handOver_dupFault _ _))
  rw [handOver_form] at form
  refine ⟨_, form, ?_, (handOver_congr _ (by rfl) (by rfl) (by rfl)).1⟩
  simp only [State.setCar, State.withMod, PerMod.set_set]
  rfl

/-- R87: no network is left for the next attempt. -/
theorem event_noNetwork {c' : Carriage} {r : Module} {tried : List Code} (reset : s.inReset = false) (calm : s.calm)
    (peer : c'.kind = .peer) (lane : c'.lane = c.lane) (noCall : r.callInProgress = false)
    (choice : dialChoice r.table r.selected tried = .impossible)
    (run : op (startEvent t s) = dialNow m tried (((startEvent t s).setCar m (some c')).withMod m r [])) :
    ∃ u, event t op s = u ∧ CarriageGone t m c s (handOver (releaseFrame c'.origin c'.tag .allNetworksFailed) s).band u ∧
      (u.mod m).callInProgress = false := by
  have gives := endCarriage_peer (m := m) (why := .allNetworksFailed)
    (s := ((startEvent t s).setCar m (some c')).withMod m r []) (c := c') (State.setCar_car _ _ _) peer
  obtain ⟨u, ended, gone, settles⟩ := event_tellsEnd (r := r) (c := c) (c' := c') reset calm lane
    (run.trans ((dialNow_impossible choice).trans gives))
  obtain ⟨⟨o, settled⟩, _⟩ := settles noCall
  exact ⟨u, ended, gone, settled.call.trans noCall⟩

end

/-- R87: a record below its first attempt's end names the next network as RESELECTING. -/
theorem Carriage.namedStage_reselecting {c : Carriage} (tried : c.tried ≠ []) : c.namedStage = .reselecting := by
  unfold Carriage.namedStage
  rw [if_neg (by simpa using tried)]

/-- Settles O49: an attempt that fails, a call that ends, and a RELEASE of the origin. -/
theorem callEndsAreReported : Obligations.CallEndsAreReported := by
  unfold Obligations.CallEndsAreReported
  intro t m c reason s reset power link car peer calm
  -- the module after a report, as the attempt is over
  have zero : ({ s.mod m with timeouts := 0 } : Module).link = true := link
  have ended {act : State → State} {v : State}
      (acts : act ((startEvent t s).withMod m { s.mod m with timeouts := 0 } []) = v) :
      onReport m act (startEvent t s) = v := onReport_start power acts
  refine ⟨fun i fails => ?_, fun inCall far => ?_, fun inCall drop => ?_, fun f heard length why slot state => ?_⟩
  · -- the failed attempt, as the operation of its event
    obtain ⟨op, arm, run⟩ : ∃ op, exec i s = .next (event t op s) ∧
        op (startEvent t s) =
          attemptFailed m true ((startEvent t s).withMod m ({ s.mod m with timeouts := 0 } : Module).attemptOver []) := by
      rcases fails with ⟨rfl, dial⟩ | ⟨rfl, state⟩
      · exact ⟨_, rfl, ended ((rejectedReport_flying (by exact dial)).trans (attemptEnds_linked zero))⟩
      · exact ⟨_, rfl, ended ((endedReport_attempt reason (by exact state)).trans (attemptEnds_linked zero))⟩
    refine ⟨fun third => ?_, fun n tried few network state => ?_⟩
    · obtain ⟨u, left, gone, call⟩ := event_attemptFailed_third reset calm car peer (by exact link) rfl third run
      exact ⟨u, arm.trans (congrArg _ left), gone, call⟩
    · have next := attemptFailed_next (s := startEvent t s) (m := m) (out := [])
        (r := ({ s.mod m with timeouts := 0 } : Module).attemptOver) car (by exact link) few network state rfl
      have named : Carriage.namedStage { c with state := .dialing, ringDeadline := none, ringHangup := false } = .reselecting :=
        Carriage.namedStage_reselecting tried
      refine ⟨fun code choice => ?_, fun code choice => ?_, fun choice => ?_⟩
      · obtain ⟨u, left, form, band⟩ := event_names reset (by exact peer) (by exact link)
          (run.trans (next.trans (dialNow_dial (by exact choice))))
        rw [named] at band
        refine ⟨u, arm.trans (congrArg _ left), form.trans ?_, band⟩
        unfold Carriage.tries
        rw [named]
        rfl
      · obtain ⟨u, left, form, band⟩ := event_names reset (by exact peer) (by exact link)
          (run.trans (next.trans (dialNow_select (by exact choice))))
        rw [named] at band
        refine ⟨u, arm.trans (congrArg _ left), form.trans ?_, band⟩
        unfold Carriage.tries
        rw [named]
        rfl
      · obtain ⟨u, left, gone, call⟩ := event_noNetwork (c := c) reset calm (by exact peer) (by rfl) (by rfl)
          (by exact choice) (run.trans next)
        exact ⟨u, arm.trans (congrArg _ left), gone, call⟩
  · have farClear : callEndOf reason = .farClear := if_pos far
    have call := endedReport_call (m := m) (s := startEvent t s) (out := []) reason (by exact inCall) zero
    rw [farClear] at call
    obtain ⟨u, left, gone, o, settled⟩ := event_tellsCallEnd reset calm car rfl
      (ended (call.trans (carriageCallEnds_farClear (s := (startEvent t s).withMod m _ []) car peer)))
    exact ⟨u, congrArg _ left, gone, settled.call⟩
  · have netDrop : callEndOf reason = .netDrop := if_neg drop
    have call := endedReport_call (m := m) (s := startEvent t s) (out := []) reason (by exact inCall) zero
    rw [netDrop] at call
    obtain ⟨u, left, gone, o, settled⟩ := event_tellsCallEnd reset calm car (Module.attemptPenalty_call _ _ _)
      (ended (call.trans (carriageCallEnds_netDrop (s := startEvent t s) car peer (by exact link))))
    refine ⟨u, congrArg _ left, ⟨gone, settled.call.trans (Module.attemptPenalty_call _ _ _)⟩, fun n network => ?_⟩
    rw [settled.table, network]
    rfl
  · have released : deliverRelease f (hunt (startEvent t s)) = removeCarriage m (hunt (startEvent t s)) := by
      obtain ⟨target, _, sender, _⟩ := heard
      have slot' : (hunt (startEvent t s)).carriageOf f.sender.toNat (octetAt f.payload 0) = some m := slot
      have car' : (hunt (startEvent t s)).car m = some c := car
      have addressed : ¬ unaddressed f = true := by
        rw [unaddressed_eq_true]; exact not_or.mpr ⟨target, sender⟩
      rw [deliverRelease_arbiter (.inr why), if_neg (not_not.mpr length)]
      unfold arbiterRelease
      rw [if_neg addressed, slot']
      dsimp only
      unfold carriageReleased
      rw [car']
      exact if_neg state
    have kept : hunt (startEvent t s) =
        { startEvent t s with
          modules := s.modules.set m (s.mod m), carriages := s.carriages.set m (some c), band := (hunt s).band,
          counters := s.counters } := by
      rw [← car]
      show _ = { startEvent t s with
        modules := s.modules.set m (s.modules.get m), carriages := s.carriages.set m (s.carriages.get m),
        band := (hunt s).band, counters := s.counters }
      rw [PerMod.set_get_self, PerMod.set_get_self]
      rfl
    have run := (receive_hears (s := startEvent t s) 6 heard rfl).trans (released.trans (congrArg (removeCarriage m) kept))
    obtain ⟨u, left, gone, hangsUp, settles⟩ := event_removes (c := c) reset calm rfl run rfl
    refine ⟨u, congrArg _ left, gone, fun call => ?_, fun call => (settles call).2⟩
    obtain ⟨hung, ordered⟩ := hangsUp call
    exact ⟨ordered, hung⟩

end Sys2Proof.Machine

/-! # The join of a carriage (05, 5.1, 5.3, 5.4) -/

namespace Sys2Proof.Machine

/-- R138: supervision of a lane of a carriage that hears carrier. -/
theorem superviseLane_carriage {m : Mod} {l : Lane} {s : State} (owner : (s.lane l).owner = some (.carriage m))
    (heard : (s.lane l).carrierA = true) :
    superviseLane l s = { s with lanes := s.lanes.set l { s.lane l with supervised := true, gapStart := none } } := by
  unfold superviseLane
  rw [owner]
  exact if_pos heard

/-- R90: what the routes of a joined carriage make of the switch. -/
structure Joined (m : Mod) (l : Lane) (c w : Switch) (now : Time) : Prop where
  toOrigin : (w.laneTx.get l).base = some (.modRx m)
  toModule : (w.modTx.get m).base = some (.laneRx l .a)
  hold : (c.modTx.get m).base ≠ some (.laneRx l .a) → (w.modTx.get m).holdUntil = some (now + ms 600)
  overlay : (w.modTx.get m).overlay = (c.modTx.get m).overlay
  players : w.players = c.players

/-- R90: the routes of a record on its lane. -/
theorem setCarriageRoutes_joined {m : Mod} {l : Lane} {c : Carriage} {s : State} (car : s.car m = some c)
    (lane : c.lane = some l) : ∃ w, setCarriageRoutes m s = { s with csw := w } ∧ Joined m l s.csw w s.now := by
  obtain ⟨x, set, base, overlay, new⟩ := setRoute_eq (.modTx m) (.laneRx l .a) (.carriage m) s
  obtain ⟨y, set', base', _, _⟩ := setRoute_eq (.lane l) (.modRx m) (.carriage m) { s with csw := s.csw.setSlot (.modTx m) x }
  have routes : setCarriageRoutes m s = setRoute (.lane l) (.modRx m) (.carriage m)
      (setRoute (.modTx m) (.laneRx l .a) (.carriage m) s) := by
    unfold setCarriageRoutes
    rw [car]
    dsimp only
    rw [lane]
  have module : (((s.csw.setSlot (.modTx m) x).setSlot (.lane l) y).modTx.get m) = x :=
    (Switch.slot_setSlot_ne (s.csw.setSlot (.modTx m) x) (d := .lane l) (e := .modTx m) y nofun).trans
      (Switch.slot_setSlot_self s.csw (.modTx m) x)
  refine ⟨_, routes.trans ((congrArg _ set).trans set'), ?_, (congrArg Slot.base module).trans base, fun other => ?_,
    (congrArg Slot.overlay module).trans overlay, ?_⟩
  · exact (congrArg Slot.base (Switch.slot_setSlot_self (s.csw.setSlot (.modTx m) x) (.lane l) y)).trans base'
  · exact (congrArg Slot.holdUntil module).trans (new other).2
  · rw [Switch.setSlot_players, Switch.setSlot_players]

/-- R85: the first network of a call is named under DIALING. -/
theorem Carriage.namedStage_first {c : Carriage} (first : c.tried = []) : c.namedStage = .dialing := by
  unfold Carriage.namedStage; rw [first]; rfl
theorem Carriage.tries_first {c : Carriage} (code : Code) (first : c.tried = []) :
    c.tries code = { c with tried := [code], network := some code, lastStage := some .dialing } := by
  unfold Carriage.tries; rw [Carriage.namedStage_first first, first]; rfl

section
variable {m : Mod} {l : Lane} {c : Carriage} {s : State} {code : Code}

/-- R115: the attempt of a module without an order in flight dials. -/
theorem dialNow_dials {tried : List Code} (choice : dialChoice (s.mod m).table (s.mod m).selected tried = .dial code) :
    dialNow m tried s =
      networkNamed m code (s.withMod m ((s.mod m).dials s.now) (s.out ++ [.order m .dial 0])) :=
  (congrArg (dialNow m tried) (State.withMod_self s m).symm).trans (dialNow_dial choice)

/-- R80: the lane of a record that joins is supervised. -/
theorem tryJoin_supervises (car : s.car m = some c) (granted : c.state = .granted) (own : c.ownPassed = true)
    (origin : c.originPassed = true) (lane : c.lane = some l) (owner : (s.lane l).owner = some (.carriage m))
    (heard : (s.lane l).carrierA = true) :
    tryJoin m s =
      if c.rejoinGrant then
        completeRejoin m
          ({ s with lanes := s.lanes.set l { s.lane l with supervised := true, gapStart := none } }.setCar m
            (some { c with connectDeadline := none }))
      else
        startAttempt m (setCarriageRoutes m
          ({ s with lanes := s.lanes.set l { s.lane l with supervised := true, gapStart := none } }.setCar m
            (some { c with connectDeadline := none, state := .dialing }))) := by
  have supervised : superviseCarriage m (s.setCar m (some { c with connectDeadline := none })) =
      { s with lanes := s.lanes.set l { s.lane l with supervised := true, gapStart := none } }.setCar m
        (some { c with connectDeadline := none }) := by
    unfold superviseCarriage
    rw [State.setCar_car]
    dsimp only
    rw [lane]
    exact superviseLane_carriage (s := s.setCar m _) owner heard
  unfold tryJoin
  rw [car]
  dsimp only
  rw [if_pos ⟨granted, own, origin⟩, State.updCar_eq car, supervised,
    State.updCar_eq (State.setCar_car _ _ _), State.setCar_setCar]

/-- R80, R85, R90: the join of a new call, with its first dial attempt. -/
theorem tryJoin_new (car : s.car m = some c) (granted : c.state = .granted) (own : c.ownPassed = true)
    (origin : c.originPassed = true) (lane : c.lane = some l) (owner : (s.lane l).owner = some (.carriage m))
    (heard : (s.lane l).carrierA = true) (new : c.rejoinGrant = false) (peer : c.kind = .peer) (first : c.tried = [])
    (flight : (s.mod m).inFlight = none) (choice : dialChoice (s.mod m).table (s.mod m).selected [] = .dial code) :
    ∃ w, tryJoin m s =
      handOver (progressFrame c.origin c.tag (oct 0) code)
        { s with
          lanes := s.lanes.set l { s.lane l with supervised := true, gapStart := none }, csw := w,
          carriages := s.carriages.set m (some
            { c with connectDeadline := none, state := .dialing, tried := [code], network := some code,
                     lastStage := some .dialing }),
          modules := s.modules.set m ((s.mod m).dials s.now), out := s.out ++ [.order m .dial 0] } ∧
      Joined m l s.csw w s.now := by
  obtain ⟨w, routed, joined⟩ := setCarriageRoutes_joined (l := l) (c := { c with connectDeadline := none, state := .dialing })
    (State.setCar_car { s with lanes := s.lanes.set l { s.lane l with supervised := true, gapStart := none } } m
      (some { c with connectDeadline := none, state := .dialing })) lane
  refine ⟨w, (tryJoin_supervises car granted own origin lane owner heard).trans ?_, joined⟩
  rw [if_neg (by rw [new]; decide), routed]
  obtain ⟨y, made⟩ : ∃ y : Carriage, y = { c with connectDeadline := none, state := .dialing } := ⟨_, rfl⟩
  have first' : y.tried = [] := by rw [made]; exact first
  have peer' : y.kind = .peer := by rw [made]; exact peer
  have named := networkNamed_peer (code := code) (m := m) (c := y)
    (s := { s with
      lanes := s.lanes.set l { s.lane l with supervised := true, gapStart := none }, csw := w,
      carriages := s.carriages.set m (some y), modules := s.modules.set m ((s.mod m).dials s.now),
      out := s.out ++ [.order m .dial 0] }) (PerMod.get_set_self _ _ _) peer'
  simp only [State.setCar, PerMod.set_set, Carriage.tries_first code first', Carriage.namedStage_first first'] at named
  rw [← made]
  refine (startAttempt_free (c := y) (by exact PerMod.get_set_self _ _ _) (by exact flight)).trans ?_
  rw [first']
  refine (dialNow_dials (by exact choice)).trans (named.trans ?_)
  rw [made]
  rfl

/-- R96: a rejoin that completes, of a call not answered, tells its stage again. -/
theorem completeRejoin_unanswered {back : ResumeState} {st : Stage} (car : s.car m = some c) (lane : c.lane = some l)
    (resume : c.resume = some back) (stage : c.lastStage = some st) (network : c.network = some code)
    (unanswered : c.answered = false) :
    ∃ v w out, completeRejoin m s =
      handOver (progressFrame c.origin c.tag (oct (stageCode st)) code)
        { s with
          csw := w, out := out,
          carriages := s.carriages.set m (some
            { c with rejoinDeadline := none, rejoinGrant := false, state := back.state, resume := none }) } ∧
      Joined m l v w s.now ∧ (∀ d, (v.slot d).base = (s.csw.slot d).base) ∧
      (playerPlays s (modPlayer m) (some .holdLine) = true → PromptEnds (modPlayer m) s.csw v) := by
  obtain ⟨v, out, stopped, ends, kept⟩ := stopPrompt_spec (modPlayer m) (some .holdLine)
    (s.setCar m (some { c with rejoinDeadline := none, rejoinGrant := false, state := back.state, resume := none }))
  obtain ⟨w, routed, joined⟩ := setCarriageRoutes_joined (m := m) (l := l)
    (c := { c with rejoinDeadline := none, rejoinGrant := false, state := back.state, resume := none })
    (s := { s.setCar m (some { c with rejoinDeadline := none, rejoinGrant := false, state := back.state, resume := none }) with
      csw := v, out := out }) (PerMod.get_set_self _ _ _) lane
  refine ⟨v, w, out, ?_, joined, fun d => ?_, fun plays => ends plays⟩
  · have told : completeRejoin m s =
        handOver (progressFrame c.origin c.tag (oct (stageCode st)) code)
          (setCarriageRoutes m (stopPrompt (modPlayer m) (some .holdLine)
            (s.setCar m (some
              { c with rejoinDeadline := none, rejoinGrant := false, state := back.state, resume := none })))) := by
      unfold completeRejoin
      rw [car]
      dsimp only
      rw [State.updCar_eq car]
      simp only [resume, stage, network, unanswered]
      rfl
    rw [told, stopped, routed]
    rfl
  · cases plays : playerPlays s (modPlayer m) (some .holdLine) with
    | true => exact ((ends plays).route d).1
    | false => rw [(kept plays).1]; rfl

end

/-- R60, R80: a CONNECT with outcome PASS for the lane held. -/
theorem arbiterConnect_pass {f : Rx} {m : Mod} {l : Lane} {c : Carriage} {s : State} (target : f.target ≠ 0)
    (sender : f.sender ≠ 0) (length : f.payload.length = 3) (slot : s.carriageOf f.sender.toNat (octetAt f.payload 0) = some m)
    (car : s.car m = some c) (granted : c.state = .granted) (held : c.lane = some l)
    (lane : octAt f.payload 1 = laneNumber l) (pass : octAt f.payload 2 = 0) :
    arbiterConnect f s = tryJoin m (s.setCar m (some { c with originPassed := true })) := by
  have reads : ¬ (unaddressed f = true ∨ f.payload.length ≠ 3) := by
    rw [unaddressed_eq_true, length]
    rintro ((h | h) | h)
    · exact target h
    · exact sender h
    · exact h rfl
  unfold arbiterConnect
  rw [if_neg reads, slot]
  dsimp only
  unfold carriageConnect
  rw [car, lane, laneOfNumber_laneNumber, pass]
  dsimp only
  rw [if_pos held, if_pos granted, if_pos rfl, State.updCar_eq car]

/-- R80: a join waits for both checks. -/
theorem tryJoin_waits {m : Mod} {c : Carriage} {s : State} (car : s.car m = some c)
    (waits : c.ownPassed = false ∨ c.originPassed = false) : tryJoin m s = s := by
  unfold tryJoin
  rw [car]
  refine if_neg fun ⟨_, own, origin⟩ => ?_
  rcases waits with h | h
  · exact Bool.false_ne_true (h.symm.trans own)
  · exact Bool.false_ne_true (h.symm.trans origin)

/-- Settles O41: the first pass, and the second of a new call and of a rejoin. -/
theorem connectNotesTheOriginsCheck : Obligations.ConnectNotesTheOriginsCheck := by
  unfold Obligations.ConnectNotesTheOriginsCheck
  intro t f m l c s reset heard length slot car granted held lane pass
  have read := (receive_hears (s := startEvent t s) 4 heard rfl).trans
    (arbiterConnect_pass (s := hunt (startEvent t s)) heard.1 heard.2.2.1 length slot car granted held lane pass)
  refine ⟨fun first => ?_, fun own owner carrier => ⟨fun code peer new tried flight choice => ?_,
    fun back st code rejoin resume stage network unanswered => ?_⟩⟩
  · have run := read.trans (tryJoin_waits (c := { c with originPassed := true }) (State.setCar_car _ _ _) (.inl first))
    exact exec_unnoticed rfl reset run ⟨rfl, rfl, rfl, rfl, rfl, rfl⟩
  · obtain ⟨w, joins, joined⟩ := tryJoin_new (c := { c with originPassed := true })
      (s := (hunt (startEvent t s)).setCar m (some { c with originPassed := true })) (State.setCar_car _ _ _) granted own rfl
      held owner carrier new peer tried flight choice
    obtain ⟨x, form⟩ := event_syncForm reset (read.trans joins) (handOver_notices _ _)
      (freedNotices_set (m := m) (r := (s.mod m).dials (max s.now t)) (handOver_modules _ _)
        fun _ => Module.grantable_of_state (by show ModuleState.dialing ≠ _; decide) (by show ModuleState.dialing ≠ _; decide))
      (offeringFlag_congr (handOver_straps _ _) (handOver_supply _ _) (handOver_dupFault _ _))
    rw [handOver_form] at form
    simp only [State.setCar, PerMod.set_set] at form
    refine ⟨_, congrArg Host.Outcome.next form, ?_, ⟨PerLane.get_set_self _ _ _, joined.toModule, joined.toOrigin, joined.hold⟩,
      PerMod.get_set_self _ _ _, PerMod.get_set_self _ _ _, ?_⟩
    · simp only [State.updSched, State.car, State.mod, State.lane, PerMod.get_set_self, PerLane.get_set_self]
      rfl
    · exact (handOver_congr _ (by rfl) (by rfl) (by rfl)).1
  · have supervises := tryJoin_supervises (c := { c with originPassed := true })
      (s := (hunt (startEvent t s)).setCar m (some { c with originPassed := true })) (State.setCar_car _ _ _) granted own rfl
      held owner carrier
    obtain ⟨v, w, out, completes, joined, routes, ends⟩ := completeRejoin_unanswered (m := m) (l := l) (code := code)
      (c := { c with originPassed := true, connectDeadline := none })
      (s := { (hunt (startEvent t s)).setCar m (some { c with originPassed := true }) with
        lanes := s.lanes.set l { s.lane l with supervised := true, gapStart := none } }.setCar m
          (some { c with originPassed := true, connectDeadline := none }))
      (State.setCar_car _ _ _) held resume stage network unanswered
    have done := exec_handsOver (c := .connect t f) rfl reset
      (read.trans (supervises.trans ((if_pos rejoin).trans completes))) ⟨rfl, rfl, rfl, rfl, rfl, rfl⟩
    rw [handOver_form] at done
    simp only [State.setCar, PerMod.set_set] at done
    refine ⟨_, done, ?_, ⟨PerLane.get_set_self _ _ _, joined.toModule, joined.toOrigin, fun other => joined.hold ?_⟩,
      PerMod.get_set_self _ _ _, fun works holdLine => ?_, (handOver_congr _ (by rfl) (by rfl) (by rfl)).1⟩
    · simp only [State.car, State.lane, PerMod.get_set_self, PerLane.get_set_self]
      rfl
    · exact fun same => other ((routes (.modTx m)).symm.trans same)
    · have plays : playerPlays s (modPlayer m) (some .holdLine) = true := by
        unfold playerPlays; dsimp only; rw [holdLine]; simpa using works
      have ended := ends plays
      have dest : playerDest (modPlayer m) = .modTx m := by cases m <;> rfl
      refine ⟨(congrArg (fun p => (PerPlayer.get p (modPlayer m)).state) joined.players).trans ended.idle, joined.overlay.trans ?_⟩
      have free := ended.overlay
      rw [dest] at free
      exact free

end Sys2Proof.Machine

/-! # The outcomes of a probe (07, 7.3) -/

namespace Sys2Proof.Machine

/-! ## The last word of a check (R134, R135, R137) -/

/-- R135: the identical run after a word. -/
theorem Engine.runAfter_free {x : Engine} {w : BitVec 32} (free : x.lastWord ≠ some w ∨ x.run < 6) : x.runAfter w < 7 := by
  unfold Engine.runAfter
  split
  next same =>
    rcases free with other | few
    · exact absurd same other
    · omega
  next => omega
theorem Engine.runAfter_stuck {x : Engine} {w : BitVec 32} (same : x.lastWord = some w) (run : x.run = 6) :
    7 ≤ x.runAfter w := by
  unfold Engine.runAfter
  rw [if_pos same]
  omega

/-- R134: the engine after the last compared word. -/
def Engine.completed (x : Engine) (i : WordIn) : Engine :=
  { x with
    compare := clockCompare x.compare i.edges, predictor := (nextWord (freeRun i.gapBits x.predictor)).2
    run := x.runAfter i.word, lastWord := some i.word, errors := satAdd x.errors (x.wordErrors i),
    compared := x.compared + 1, checker := .ended }

/-- R131: an engine whose checker has ended is stopped with its generator, or goes on generating. -/
theorem Engine.finish_cases (x : Engine) : x.finish = x.stopped ∨ x.finish = x := by
  unfold Engine.finish
  split
  · exact .inl rfl
  · exact .inr rfl

section
variable {s : State} {i : WordIn}

/-- R134, R137: the last word of a probe's check. -/
theorem wordArrives_complete (user : (s.engine i.engine).user ≠ some .laneTest) (check : (s.engine i.engine).checker = .check)
    (last : (s.engine i.engine).compared = 1023)
    (free : (s.engine i.engine).lastWord ≠ some i.word ∨ (s.engine i.engine).run < 6) :
    wordArrives i s =
      reportOutcome i.engine ((s.engine i.engine).completed i).checkOutcome
        { s with engines := s.engines.set i.engine ((s.engine i.engine).completed i) } := by
  have word : ((s.engine i.engine).clocked i.edges).word i 1024 s.now =
      ((s.engine i.engine).completed i, some .complete) := by
    rw [Engine.word_clocked_check check]
    exact Engine.checkWord_complete (Engine.runAfter_free free) (by show (s.engine i.engine).compared + 1 = 1024; omega)
  have entry : State.engine { s with engines := s.engines.set i.engine ((s.engine i.engine).completed i) } i.engine =
      (s.engine i.engine).completed i := PerEngine.get_set_self _ _ _
  have user' : ((s.engine i.engine).completed i).user ≠ some .laneTest := user
  rw [wordArrives_probe user word rfl]
  unfold wordOutcome completeOutcome
  rw [entry]
  dsimp only
  split
  next who _ => exact absurd who user'
  next => rfl

/-- R135: the seventh identical word. -/
theorem wordArrives_stuck (user : (s.engine i.engine).user ≠ some .laneTest)
    (state : (s.engine i.engine).checker = .steady ∨ (s.engine i.engine).checker = .check)
    (same : (s.engine i.engine).lastWord = some i.word) (run : (s.engine i.engine).run = 6) :
    ∃ y, wordArrives i s = reportOutcome i.engine .stuck { s with engines := s.engines.set i.engine y } ∧
      y.user = (s.engine i.engine).user ∧ y.lane = (s.engine i.engine).lane := by
  have word : ∃ y, ((s.engine i.engine).clocked i.edges).word i 1024 s.now = (y, some .stuck) ∧
      y.user = (s.engine i.engine).user ∧ y.lane = (s.engine i.engine).lane := by
    rcases state with steady | check
    · obtain ⟨y, word, form⟩ := Engine.steadyWord_stuck (err := (s.engine i.engine).wordErrors i)
        (x := { s.engine i.engine with predictor := (nextWord (freeRun i.gapBits (s.engine i.engine).predictor)).2 })
        (Engine.runAfter_stuck same run)
      refine ⟨y, ?_, (congrArg Engine.user form).trans rfl, (congrArg Engine.lane form).trans rfl⟩
      rw [Engine.clocked_of_not_check i.edges (ne_of_eq_of_ne steady (by decide)), Engine.word_steady steady]
      exact word
    · obtain ⟨y, word, form⟩ := Engine.checkWord_stuck (err := (s.engine i.engine).wordErrors i) (g := 1024)
        (x := { s.engine i.engine with
          compare := clockCompare (s.engine i.engine).compare i.edges
          predictor := (nextWord (freeRun i.gapBits (s.engine i.engine).predictor)).2 })
        (Engine.runAfter_stuck same run)
      refine ⟨y, ?_, (congrArg Engine.user form).trans rfl, (congrArg Engine.lane form).trans rfl⟩
      rw [Engine.word_clocked_check check]
      exact word
  obtain ⟨y, word, who, lane⟩ := word
  exact ⟨y, wordArrives_probe user word who, who, lane⟩

/-- R133: the eighth restart. -/
theorem wordArrives_nosync (user : (s.engine i.engine).user ≠ some .laneTest) (steady : (s.engine i.engine).checker = .steady)
    (free : (s.engine i.engine).lastWord ≠ some i.word ∨ (s.engine i.engine).run < 6)
    (wrong : (s.engine i.engine).wordErrors i ≠ 0) (last : (s.engine i.engine).restarts = 7) :
    ∃ y, wordArrives i s = reportOutcome i.engine .nosync { s with engines := s.engines.set i.engine y } ∧
      y.user = (s.engine i.engine).user ∧ y.lane = (s.engine i.engine).lane := by
  obtain ⟨y, word, form⟩ := Engine.steadyWord_nosync (err := (s.engine i.engine).wordErrors i)
    (x := { s.engine i.engine with predictor := (nextWord (freeRun i.gapBits (s.engine i.engine).predictor)).2 })
    (Engine.runAfter_free free) wrong last
  have who : y.user = (s.engine i.engine).user := (congrArg Engine.user form).trans rfl
  refine ⟨y, wordArrives_probe (o := some .nosync) user ?_ who, who, (congrArg Engine.lane form).trans rfl⟩
  rw [Engine.clocked_of_not_check i.edges (ne_of_eq_of_ne steady (by decide)), Engine.word_steady steady]
  exact word

end

/-! ## The probe of the origin record (R42, R43) -/

/-- R167: what a hand-over makes of the band depends on the straps and the band alone. -/
theorem handOver_band_congr (f : Frame) {s u : State} (straps : u.straps = s.straps) (band : u.band = s.band) :
    (handOver f u).band = (handOver f s).band := by
  unfold handOver State.own
  rw [straps, band]
  split
  · exact band
  · dsimp only
    split <;> rfl

/-- R167, R173: a hand-over from a state that shares its band with another. -/
theorem handOver_into (f : Frame) {s u : State} (straps : u.straps = s.straps) (band : u.band = s.band) :
    ∃ k, handOver f u =
      { u with band := (handOver f s).band, counters := { u.counters with framesDropped := k } } := by
  obtain ⟨k, counted⟩ := handOver_counters f u
  exact ⟨k, by rw [← counted, ← handOver_band_congr f straps band]; exact handOver_form f u⟩

section
variable {s : State} {st : Station} {l : Lane} {y : Engine}

/-- R137: the outcome of the origin record's probe. -/
theorem reportOutcome_origin (o : ProbeOutcome) (user : y.user = some .origin) :
    reportOutcome .e0 o { s with engines := s.engines.set .e0 y } =
      originProbeEnds o (countProbeFailure o { s with engines := s.engines.set .e0 y.finish }) := by
  have entry : State.engine { s with engines := s.engines.set .e0 y } .e0 = y := rfl
  unfold reportOutcome
  dsimp only
  rw [entry, user]
  rfl

/-- R43: a probe that does not pass. -/
theorem originProbeEnds_fails {o : ProbeOutcome} (failed : o ≠ .pass) (probing : s.coc.state = .probing)
    (path : s.coc.onLane st l) :
    originProbeEnds o (countProbeFailure o s) =
      probeFails st l o (s.count fun c => { c with probeFailures := satInc c.probeFailures }) := by
  have counted : countProbeFailure o s = s.count fun c => { c with probeFailures := satInc c.probeFailures } := if_neg failed
  rw [counted]
  unfold originProbeEnds
  have state' : (s.count fun c => { c with probeFailures := satInc c.probeFailures }).coc.state = .probing := probing
  have peer : (s.count fun c => { c with probeFailures := satInc c.probeFailures }).coc.peer = some st := Origin.onLane_peer path
  have lane : (s.count fun c => { c with probeFailures := satInc c.probeFailures }).coc.lane = some l := Origin.onLane_lane path
  rw [state', peer, lane]
  exact if_neg failed

/-- R56, R127: a record gives up its lane with a quarantine. -/
theorem dropLane_quarantined (lane : s.coc.lane = some l) (own : (s.lane l).occupancy = .own)
    (owner : (s.lane l).owner = some .origin) :
    ∃ z a b e, dropLane true s =
      { s with
        lanes := s.lanes.set l z, csw := { s.csw.without .origin with gapA := a, gapB := b },
        engines := s.engines.set .e0 e,
        coc := { s.coc with path := s.coc.path.map fun p => { p with lane := none } } } ∧
      LaneFailed (s.lane l) z s.now ∧ (e = s.engine .e0 ∨ e = (s.engine .e0).stopped) ∧
      ((s.engine .e0).lane = some l → e = (s.engine .e0).stopped) := by
  obtain ⟨z, a, b, e, released, failed, engine, stopped⟩ :=
    releaseLane_quarantined (s := clearRoutes .origin s) (o := .origin) own owner
  refine ⟨z, a, b, e, ?_, failed, engine, stopped⟩
  have held : (clearRoutes .origin s).coc.lane = some l := lane
  unfold dropLane
  dsimp only
  rw [held]
  dsimp only
  rw [if_pos rfl, released]
  rfl

/-- R43, R137: a failed probe is counted, told, and its lane given up with a quarantine. -/
theorem originProbe_fails {o : ProbeOutcome} (failed : o ≠ .pass) (user : y.user = some .origin) (lane : y.lane = some l)
    (probing : s.coc.state = .probing) (path : s.coc.onLane st l) (own : (s.lane l).occupancy = .own)
    (owner : (s.lane l).owner = some .origin) :
    ∃ z a b e n, reportOutcome .e0 o { s with engines := s.engines.set .e0 y } =
      { s with
        band := (handOver (connectFrame st s.coc.tag l o) s).band, counters := n, lanes := s.lanes.set l z,
        csw := { s.csw.without .origin with gapA := a, gapB := b }, engines := s.engines.set .e0 e,
        coc := { s.coc with
          path := s.coc.path.map fun p => { p with lane := none }, regrantWait := some (s.now + regrantTime) } } ∧
      LaneFailed (s.lane l) z s.now ∧ e.user = none ∧ n.probeFailures = satInc s.counters.probeFailures := by
  obtain ⟨n, told, counted⟩ : ∃ n,
      handOver (connectFrame st s.coc.tag l o) (State.count { s with engines := s.engines.set .e0 y.finish } fun c =>
        { c with probeFailures := satInc c.probeFailures }) =
      { s with
        band := (handOver (connectFrame st s.coc.tag l o) s).band, counters := n, engines := s.engines.set .e0 y.finish } ∧
      n.probeFailures = satInc s.counters.probeFailures := by
    obtain ⟨k, told⟩ := handOver_into (s := s) (connectFrame st s.coc.tag l o)
      (u := State.count { s with engines := s.engines.set .e0 y.finish } fun c =>
        { c with probeFailures := satInc c.probeFailures }) rfl rfl
    exact ⟨_, told, rfl⟩
  obtain ⟨z, a, b, e, dropped, given, engine, stopped⟩ := dropLane_quarantined
    (s := { s with
      band := (handOver (connectFrame st s.coc.tag l o) s).band, counters := n, engines := s.engines.set .e0 y.finish })
    (Origin.onLane_lane path) own owner
  refine ⟨z, a, b, e, n, ?_, given, ?_, counted⟩
  · rw [reportOutcome_origin o user,
      originProbeEnds_fails (s := { s with engines := s.engines.set .e0 y.finish }) failed probing path]
    unfold probeFails
    dsimp only
    have same : (State.count { s with engines := s.engines.set .e0 y.finish } fun c =>
        { c with probeFailures := satInc c.probeFailures }).coc.tag = s.coc.tag := rfl
    rw [same, told, dropped]
    rfl
  · have works : State.engine { s with
        band := (handOver (connectFrame st s.coc.tag l o) s).band, counters := n, engines := s.engines.set .e0 y.finish } .e0 =
        y.finish := rfl
    rw [works] at engine stopped
    rcases y.finish_cases with idle | goesOn
    · rw [idle] at engine
      rcases engine with rfl | rfl <;> rfl
    · rw [goesOn] at stopped
      rw [stopped lane]
      rfl

end

/-- Settles O55: each of the five failures. -/
theorem failedProbeIsReported : Obligations.FailedProbeIsReported := by
  unfold Obligations.FailedProbeIsReported
  intro t st l s reset probing path own owner user lane
  have notTest : (s.engine .e0).user ≠ some .laneTest := ne_of_eq_of_ne user (by decide)
  -- the event of a probe that has ended with a failure, by the engine that it leaves
  have fails {op : State → State} {o : ProbeOutcome} {y : Engine} (failed : o ≠ .pass)
      (run : op (startEvent t s) = reportOutcome .e0 o { startEvent t s with engines := s.engines.set .e0 y })
      (who : y.user = some .origin) (where_ : y.lane = some l) :
      ∃ u, event t op s = u ∧
        u = { startEvent t s with
              coc := u.coc, csw := u.csw, lanes := s.lanes.set l (u.lane l),
              engines := s.engines.set .e0 (u.engine .e0), band := u.band, counters := u.counters } ∧
          u.coc.state = .probing ∧ u.coc.onPeer st ∧ u.coc.regrantWait = some (max s.now t + ms 2000) ∧
          (u.lane l).occupancy = .busy ∧ (u.lane l).owner = none ∧
          (∃ q, (u.lane l).quarantineUntil = some q ∧ max s.now t + ms 10000 ≤ q) ∧ (u.engine .e0).user = none ∧
          u.counters.probeFailures = satInc s.counters.probeFailures ∧
          u.band = (handOver (connectFrame st s.coc.tag l o) s).band := by
    obtain ⟨z, a, b, e, n, ended, given, idle, counted⟩ := originProbe_fails (s := startEvent t s) failed who where_ probing path
      own owner
    have left := event_unnoticed reset (run.trans ended) ⟨rfl, rfl, rfl, handOver_dupFault _ _, rfl, rfl⟩
    have entry : (s.lanes.set l z).get l = z := PerLane.get_set_self _ _ _
    have engine : (s.engines.set .e0 e).get .e0 = e := PerEngine.get_set_self _ _ _
    refine ⟨_, left, ?_, probing, ?_, rfl, (congrArg LaneEntry.occupancy entry).trans given.occupancy,
      (congrArg LaneEntry.owner entry).trans given.owner, ?_, (congrArg Engine.user engine).trans idle, counted,
      handOver_band_congr _ (by rfl) (by rfl)⟩
    · simp only [State.lane, PerLane.get_set_self]
      rfl
    · obtain ⟨k, path'⟩ := path
      exact ⟨k, by show Option.map _ s.coc.path = _; rw [path']; rfl⟩
    · obtain ⟨q, until_, long⟩ := given.quarantine
      exact ⟨q, (congrArg LaneEntry.quarantineUntil entry).trans until_, long⟩
  refine ⟨fun i first => ⟨fun state same run => ?_, fun steady free wrong last => ?_, fun check last free => ⟨fun many => ?_,
    fun few slips => ?_⟩⟩, fun checking due => ?_⟩
  · obtain ⟨y, stuck, who, where_⟩ := wordArrives_stuck (s := startEvent t s) (i := i) (by rw [first]; exact notTest)
      (by rw [first]; exact state) (by rw [first]; exact same) (by rw [first]; exact run)
    rw [first] at stuck who where_
    obtain ⟨u, left, told⟩ := fails (by decide) stuck (who.trans user) (where_.trans lane)
    exact ⟨u, congrArg _ left, told⟩
  · obtain ⟨y, nosync, who, where_⟩ := wordArrives_nosync (s := startEvent t s) (i := i) (by rw [first]; exact notTest)
      (by rw [first]; exact steady) (by rw [first]; exact free) (by rw [first]; exact wrong) (by rw [first]; exact last)
    rw [first] at nosync who where_
    obtain ⟨u, left, told⟩ := fails (by decide) nosync (who.trans user) (where_.trans lane)
    exact ⟨u, congrArg _ left, told⟩
  · have complete := wordArrives_complete (s := startEvent t s) (i := i) (by rw [first]; exact notTest)
      (by rw [first]; exact check) (by rw [first]; exact last) (by rw [first]; exact free)
    rw [first] at complete
    have outcome : ((s.engine .e0).completed i).checkOutcome = .errors := if_pos many
    rw [show (startEvent t s).engine .e0 = s.engine .e0 from rfl, outcome] at complete
    obtain ⟨u, left, told⟩ := fails (by decide) complete user lane
    exact ⟨u, congrArg _ left, told⟩
  · have complete := wordArrives_complete (s := startEvent t s) (i := i) (by rw [first]; exact notTest)
      (by rw [first]; exact check) (by rw [first]; exact last) (by rw [first]; exact free)
    rw [first] at complete
    have outcome : ((s.engine .e0).completed i).checkOutcome = .drift :=
      (if_neg (Nat.not_lt.mpr few)).trans (if_pos slips)
    rw [show (startEvent t s).engine .e0 = s.engine .e0 from rfl, outcome] at complete
    obtain ⟨u, left, told⟩ := fails (by decide) complete user lane
    exact ⟨u, congrArg _ left, told⟩
  · have run : probeTimesOut .e0 (startEvent t s) =
        reportOutcome .e0 .timeout
          { startEvent t s with engines := s.engines.set .e0 { s.engine .e0 with checker := .ended } } :=
      if_pos ⟨checking, notTest, due⟩
    obtain ⟨u, left, told⟩ := fails (by decide) run user lane
    exact ⟨u, congrArg _ left, told⟩

end Sys2Proof.Machine

/-! # A probe that passes (03, 3.4; 05, 5.1) -/

namespace Sys2Proof.Machine

/-- R138: supervision of an owned lane begins. -/
theorem superviseLane_owned {l : Lane} {o : Owner} {s : State} (owner : (s.lane l).owner = some o) :
    ∃ g a b, superviseLane l s =
      { s with
        lanes := s.lanes.set l { s.lane l with supervised := true, gapStart := g },
        csw := { s.csw with gapA := a, gapB := b } } := by
  unfold superviseLane
  rw [owner]
  dsimp only
  split
  · exact ⟨none, s.csw.gapA, s.csw.gapB, rfl⟩
  · unfold setGapMark
    cases receiveHalfOf o <;> exact ⟨some s.now, _, _, rfl⟩

section
variable {s : State} {st : Station} {l : Lane}

/-- R56: the routes of the origin record on the lane of a PEER path. -/
theorem setOriginRoutes_peer (path : s.coc.onLane st l) :
    ∃ w, setOriginRoutes s = { s with csw := w } ∧ w.speaker.base = some (.laneRx l .b) ∧
      (w.laneTx.get l).base = some .mic := by
  obtain ⟨x, set, base, _⟩ := setRoute_eq .speaker (.laneRx l .b) .origin s
  obtain ⟨y, set', base', _⟩ := setRoute_eq (.lane l) .mic .origin { s with csw := s.csw.setSlot .speaker x }
  have routes : setOriginRoutes s = setRoute (.lane l) .mic .origin (setRoute .speaker (.laneRx l .b) .origin s) := by
    obtain ⟨k, path'⟩ := path
    unfold setOriginRoutes
    rw [path']
  exact ⟨_, routes.trans ((congrArg _ set).trans set'), base,
    (congrArg Slot.base (Switch.slot_setSlot_self (s.csw.setSlot .speaker x) (.lane l) y)).trans base'⟩

/-- R42: the record as its probe passes. -/
def Origin.probePassed (c : Origin) : Origin :=
  { c with stage := if c.claimKind = .rejoin then c.stage else none, searchDeadline := none, state := .dialing }

/-- R42, R56, R138: the origin record's probe passes. -/
theorem originProbeEnds_pass (probing : s.coc.state = .probing) (path : s.coc.onLane st l)
    (owner : (s.lane l).owner = some .origin) :
    ∃ w g k, originProbeEnds .pass s =
      { s with
        band := (handOver (connectFrame st s.coc.tag l .pass) s).band, counters := { s.counters with framesDropped := k },
        coc := s.coc.probePassed, lamp := s.lampFor .seek, csw := w,
        lanes := s.lanes.set l { s.lane l with supervised := true, gapStart := g } } ∧
      w.speaker.base = some (.laneRx l .b) ∧ (w.laneTx.get l).base = some .mic := by
  have passes : originProbeEnds .pass s = probePasses st l s := by
    unfold originProbeEnds
    rw [probing, Origin.onLane_peer path, Origin.onLane_lane path]
    exact if_pos rfl
  obtain ⟨k, told⟩ := handOver_into (s := s) (u := s) (connectFrame st s.coc.tag l .pass) rfl rfl
  obtain ⟨w, routed, speaker, lane⟩ := setOriginRoutes_peer (st := st) (l := l)
    (s := { s with
      band := (handOver (connectFrame st s.coc.tag l .pass) s).band, counters := { s.counters with framesDropped := k },
      coc := s.coc.probePassed, lamp := s.lampFor .seek }) path
  obtain ⟨g, a, b, supervised⟩ := superviseLane_owned (l := l) (o := .origin)
    (s := { s with
      band := (handOver (connectFrame st s.coc.tag l .pass) s).band, counters := { s.counters with framesDropped := k },
      coc := s.coc.probePassed, lamp := s.lampFor .seek, csw := w }) owner
  refine ⟨{ w with gapA := a, gapB := b }, g, k, passes.trans ?_, speaker, lane⟩
  unfold probePasses
  dsimp only
  rw [told]
  exact (congrArg (superviseLane l) routed).trans supervised

end

/-- R137: a pass is no failure. -/
theorem countProbeFailure_pass (s : State) : countProbeFailure .pass s = s := if_pos rfl

/-! ## The probe of a carriage (R80) -/

section
variable {s : State} {m : Mod} {c : Carriage} {y : Engine}

/-- R80, R137: a carriage's probe has passed. -/
theorem reportOutcome_carriage {e : EngineId} (user : y.user = some (.carriage m)) (car : s.car m = some c)
    (granted : c.state = .granted) :
    reportOutcome e .pass { s with engines := s.engines.set e y } =
      tryJoin m
        ({ s with engines := s.engines.set e y.finish }.setCar m (some { c with ownPassed := true })) := by
  have entry : State.engine { s with engines := s.engines.set e y } e = y := PerEngine.get_set_self _ _ _
  have finished : State.updEngine { s with engines := s.engines.set e y } e Engine.finish =
      { s with engines := s.engines.set e y.finish } := by
    simp only [State.updEngine, PerEngine.get_set_self, PerEngine.set_set]
  have car' : State.car { s with engines := s.engines.set e y.finish } m = some c := car
  have passes : reportOutcome e .pass { s with engines := s.engines.set e y } =
      carriageProbeEnds m .pass { s with engines := s.engines.set e y.finish } := by
    unfold reportOutcome
    dsimp only
    rw [entry, user, finished]
    rfl
  rw [passes]
  unfold carriageProbeEnds
  rw [car']
  dsimp only
  rw [if_pos granted, if_pos rfl, State.updCar_eq car']

end

/-- Settles O56. -/
theorem passedProbeIsReported : Obligations.PassedProbeIsReported := by
  unfold Obligations.PassedProbeIsReported
  intro t i s reset x check last free few slips
  -- the last word, at the checker of a call probe
  have passes : ((s.engine i.engine).completed i).checkOutcome = .pass :=
    (if_neg (Nat.not_lt.mpr few)).trans (if_neg (Nat.not_lt.mpr slips))
  have word (user : (s.engine i.engine).user ≠ some .laneTest) :
      wordArrives i (startEvent t s) =
        reportOutcome i.engine .pass
          { startEvent t s with engines := s.engines.set i.engine ((s.engine i.engine).completed i) } := by
    have complete := wordArrives_complete (s := startEvent t s) user check last free
    rw [show (startEvent t s).engine i.engine = s.engine i.engine from rfl, passes] at complete
    exact complete
  refine ⟨fun st l first user probing path owner => ?_, fun m c first user car granted => ?_⟩
  · have read := word (ne_of_eq_of_ne user (by decide))
    have user' : (s.engine i.engine).user = some .origin := user
    rw [first] at read user'
    obtain ⟨w, g, k, ended, speaker, lane⟩ := originProbeEnds_pass (st := st) (l := l)
      (s := { startEvent t s with engines := s.engines.set .e0 ((s.engine .e0).completed i).finish }) probing path owner
    have run := read.trans ((reportOutcome_origin (s := startEvent t s) (y := (s.engine .e0).completed i) .pass user').trans
      ((congrArg (originProbeEnds .pass) (countProbeFailure_pass _)).trans ended))
    have left := exec_unnoticed (c := .checkComplete t i) rfl reset run ⟨rfl, rfl, rfl, handOver_dupFault _ _, rfl, rfl⟩
    have entry : (s.lanes.set l { s.lane l with supervised := true, gapStart := g }).get l =
        { s.lane l with supervised := true, gapStart := g } := PerLane.get_set_self _ _ _
    refine ⟨_, left, ?_, rfl, path, rfl, fun new => ?_, fun rejoin => ?_, State.lampFor_requested _ _,
      congrArg LaneEntry.supervised entry, (congrArg LaneEntry.owner entry).trans owner, speaker, lane, rfl,
      handOver_band_congr _ (by rfl) (by rfl)⟩
    · simp only [State.lane, PerLane.get_set_self]
      rfl
    · exact if_neg (ne_of_eq_of_ne new (by decide))
    · exact if_pos rejoin
  · have joins := (word (ne_of_eq_of_ne user (by nofun))).trans
      (reportOutcome_carriage (s := startEvent t s) (m := m) (c := c) user car granted)
    refine ⟨fun second => ?_, fun l code origin peer new tried held owner carrier flight choice => ?_⟩
    · have run := joins.trans (tryJoin_waits (c := { c with ownPassed := true }) (State.setCar_car _ _ _) (.inr second))
      have left := exec_unnoticed (c := .checkComplete t i) rfl reset run ⟨rfl, rfl, rfl, rfl, rfl, rfl⟩
      refine ⟨_, left, ?_⟩
      simp only [State.engine, State.setCar, PerEngine.get_set_self]
      rfl
    · obtain ⟨w, joined, routes⟩ := tryJoin_new (c := { c with ownPassed := true })
        (s := { startEvent t s with engines := s.engines.set i.engine ((s.engine i.engine).completed i).finish }.setCar m
          (some { c with ownPassed := true })) (State.setCar_car _ _ _) granted rfl origin held owner carrier new peer tried
        flight choice
      obtain ⟨x, form⟩ := event_syncForm reset (joins.trans joined) (handOver_notices _ _)
        (freedNotices_set (m := m) (r := (s.mod m).dials (max s.now t)) (handOver_modules _ _)
          fun _ => Module.grantable_of_state (by show ModuleState.dialing ≠ _; decide) (by show ModuleState.dialing ≠ _; decide))
        (offeringFlag_congr (handOver_straps _ _) (handOver_supply _ _) (handOver_dupFault _ _))
      rw [handOver_form] at form
      simp only [State.setCar, PerMod.set_set] at form
      refine ⟨_, congrArg Host.Outcome.next form, ?_, PerMod.get_set_self _ _ _, PerMod.get_set_self _ _ _, routes.toModule,
        routes.toOrigin, handOver_count _ _ Counters.probeFailures fun _ _ => rfl, handOver_band_congr _ (by rfl) (by rfl)⟩
      simp only [State.updSched, State.car, State.mod, State.engine, PerMod.get_set_self, PerEngine.get_set_self]
      rfl

end Sys2Proof.Machine

/-! # A supervised lane: dropouts and losses (07, 7.5; 03, 3.6; 05, 5.4) -/

namespace Sys2Proof.Machine

/-! ## Gaps (R138, R145) -/

section
variable {s : State} {l : Lane} {o : Owner}

/-- R121: the half a call probe's owner listens on is not the one it drives. -/
theorem halfRead_owned (owner : (s.lane l).owner = some o) (call : o ≠ .laneTest) : halfRead l (receiveHalfOf o) s = true := by
  have driven : (s.lane l).driven ≠ some (receiveHalfOf o) := by
    unfold LaneEntry.driven
    rw [owner]
    split
    · cases o with
      | origin | carriage => exact fun same => nomatch Option.some.inj same
      | laneTest => exact absurd rfl call
    · nofun
  exact bne_iff_ne.mpr driven

/-- R182: without a lane test no gap is counted for one. -/
theorem countTestGap_untested (h : Half) (untested : s.svc.test = none) : countTestGap l h s = s := by
  unfold countTestGap
  dsimp only
  split
  · rw [untested]
    show { s with svc := { s.svc with test := none } } = s
    rw [← untested]
  · rfl

theorem beginGap_supervised (owner : (s.lane l).owner = some o) (supervised : (s.lane l).supervised = true) :
    beginGap l (receiveHalfOf o) s =
      setGapMark l (receiveHalfOf o) true (s.updLane l fun x => { x with gapStart := some s.now }) := by
  unfold beginGap
  dsimp only
  rw [owner]
  exact if_pos ⟨supervised, rfl⟩

theorem endGap_supervised {g : Time} (owner : (s.lane l).owner = some o) (supervised : (s.lane l).supervised = true)
    (gap : (s.lane l).gapStart = some g) :
    endGap l (receiveHalfOf o) s =
      reportDropout o
        (setGapMark l (receiveHalfOf o) false (s.updLane l fun x => { x with gapStart := none })) := by
  unfold endGap
  dsimp only
  rw [owner]
  exact if_pos ⟨supervised, by rw [gap]; rfl, rfl⟩

theorem reportDropout_carriage {m : Mod} {c : Carriage} (car : s.car m = some c) :
    reportDropout (.carriage m) s = s.setCar m (some { c with dropouts := satInc c.dropouts }) := State.updCar_eq car _

/-- R121: a driven lane whose carrier ends is not quiet. -/
theorem LaneEntry.falls_driven {x : LaneEntry} (h : Half) (now : Time) (occupancy : x.occupancy = .own) (owner : x.owner = some o) :
    x.falls h now = x.setHeard h false := by
  have driven : x.driven.isNone = false := by
    unfold LaneEntry.driven
    rw [occupancy, owner]
    cases o <;> rfl
  unfold LaneEntry.falls
  rw [driven, Bool.and_false]
  exact if_neg Bool.false_ne_true

theorem LaneEntry.rises_own {x : LaneEntry} (h : Half) (occupancy : x.occupancy = .own) :
    x.rises h = { x.setHeard h true with quietSince := none } := by
  have kept : (x.setHeard h true).occupancy = x.occupancy := by cases h <;> rfl
  unfold LaneEntry.rises
  rw [if_neg (ne_of_eq_of_ne occupancy (by decide)), ← kept]

/-- R138, R145: the owner of a supervised lane loses carrier. -/
theorem carrierFalls_supervised (occupancy : (s.lane l).occupancy = .own) (owner : (s.lane l).owner = some o)
    (call : o ≠ .laneTest) (supervised : (s.lane l).supervised = true) (heard : (s.lane l).heard (receiveHalfOf o) = true) :
    carrierFalls l (receiveHalfOf o) s =
      (setGapMark l (receiveHalfOf o) true
        { s with
          lanes := s.lanes.set l { (s.lane l).setHeard (receiveHalfOf o) false with gapStart := some s.now } }).atHalf l
        (receiveHalfOf o) (·.carrierOff s.now) := by
  refine carrierFalls_read (u := setGapMark _ _ _ _) (halfRead_owned owner call) heard ?_
  rw [beginGap_supervised (o := o) (by rw [State.updLane_lane]; exact (LaneEntry.falls_owner _ _ _).trans owner)
    (by rw [State.updLane_lane, LaneEntry.falls_driven _ _ occupancy owner]; exact (LaneEntry.setHeard_supervised _ _ _).trans supervised)]
  simp only [State.updLane, State.lane, PerLane.get_set_self, PerLane.set_set,
    LaneEntry.falls_driven (x := s.lanes.get l) _ _ occupancy owner]

/-- R138, R145: the owner of a supervised lane hears carrier again. -/
theorem carrierRises_supervised {g : Time} (occupancy : (s.lane l).occupancy = .own) (owner : (s.lane l).owner = some o)
    (call : o ≠ .laneTest) (supervised : (s.lane l).supervised = true) (silent : (s.lane l).heard (receiveHalfOf o) = false)
    (gap : (s.lane l).gapStart = some g) (untested : s.svc.test = none) :
    ∃ es, carrierRises l (receiveHalfOf o) s =
      { reportDropout o (setGapMark l (receiveHalfOf o) false
          { s with
            lanes := s.lanes.set l { (s.lane l).setHeard (receiveHalfOf o) true with gapStart := none, quietSince := none } })
        with engines := es } := by
  have ended : countTestGap l (receiveHalfOf o) (endGap l (receiveHalfOf o) (s.updLane l fun x => x.rises (receiveHalfOf o))) =
      reportDropout o (setGapMark l (receiveHalfOf o) false
        { s with
          lanes := s.lanes.set l
            { (s.lane l).setHeard (receiveHalfOf o) true with gapStart := none, quietSince := none } }) := by
    rw [endGap_supervised (o := o) (g := g) (by rw [State.updLane_lane]; exact (LaneEntry.rises_owner _ _).trans owner)
      (by rw [State.updLane_lane, LaneEntry.rises_own _ occupancy]; exact (LaneEntry.setHeard_supervised _ _ _).trans supervised)
      (by rw [State.updLane_lane, LaneEntry.rises_own _ occupancy]; exact (LaneEntry.setHeard_gapStart _ _ _).trans gap)]
    refine (countTestGap_untested _ ?_).trans ?_
    · unfold reportDropout
      cases o with
      | origin | laneTest => exact untested
      | carriage m => unfold State.updCar; split <;> exact untested
    · simp only [State.updLane, State.lane, PerLane.get_set_self, PerLane.set_set,
        LaneEntry.rises_own (x := s.lanes.get l) _ occupancy]
  exact ⟨_, carrierRises_read (halfRead_owned owner call) silent ended⟩

end

/-! ## The loss of a lane (R139) -/

/-- R122, R128: a lane that was not free and is not free leaves the lane mask as it is. -/
theorem laneMask_set {s u : State} {l : Lane} {x : LaneEntry} (lanes : u.lanes = s.lanes.set l x)
    (before : (s.lane l).freeForChoosing = false) (now : x.freeForChoosing = false) : u.laneMask = s.laneMask := by
  have free (n : Lane) : (u.lane n).freeForChoosing = (s.lane n).freeForChoosing := by
    unfold State.lane
    rw [lanes]
    by_cases same : n = l
    · subst same; rw [PerLane.get_set_self, now]; exact before.symm
    · rw [PerLane.get_set_ne _ _ _ _ same]
  unfold State.laneMask
  simp only [free]

/-- R139: a supervised gap reaches 400 ms. -/
theorem loseLane_due {s : State} {l : Lane} {o : Owner} {g : Time} (owner : (s.lane l).owner = some o)
    (supervised : (s.lane l).supervised = true) (gap : (s.lane l).gapStart = some g) (due : g + ms 400 ≤ s.now) :
    ∃ h a b, loseLane l s =
      reportLaneLoss o
        { s with
          lanes := s.lanes.set l { s.lane l with supervised := false, gapStart := h },
          csw := { s.csw with gapA := a, gapB := b },
          counters := { s.counters with laneLosses := satInc s.counters.laneLosses } } := by
  obtain ⟨h, a, b, ended⟩ := endSupervision_eq l (s.count fun c => { c with laneLosses := satInc c.laneLosses })
  have due' : s.due ((s.lane l).gapStart.map (· + lossTime)) = true := by rw [gap]; exact decide_eq_true due
  have loses : loseLane l s =
      reportLaneLoss o (endSupervision l (s.count fun c => { c with laneLosses := satInc c.laneLosses })) := by
    unfold loseLane
    dsimp only
    rw [owner]
    exact if_pos ⟨supervised, due'⟩
  exact ⟨h, a, b, loses.trans (congrArg (reportLaneLoss o) (ended.trans rfl))⟩

/-- R49: the record as it rejoins its carriage. -/
def Origin.rejoins (c : Origin) (now : Time) : Origin :=
  { c with
    path := c.path.map fun p => { p with lane := none }, recoveries := satInc c.recoveries,
    searchDeadline := some (now + searchTime), state := .recovering, claimKind := .rejoin, attempts := 1,
    answerDeadline := some (now + claimAnswerTime) }

/-- R49: an answered call whose lane is lost claims its carriage again. -/
theorem originLaneLoss_recovers {s : State} {l : Lane} {st : Station} (state : s.coc.state = .connected) (path : s.coc.onLane st l)
    (occupancy : (s.lane l).occupancy = .own) (owner : (s.lane l).owner = some .origin) :
    ∃ x e w o k, originLaneLoss s =
      { s with
        coc := s.coc.rejoins s.now, lamp := s.lampFor .seek, csw := w, out := o,
        lanes := s.lanes.set l x, engines := s.engines.set .e0 e,
        band := (handOver (claimFrame st s.coc.tag .rejoin s.laneMask) s).band,
        counters := { s.counters with framesDropped := k } } ∧ x.occupancy = .busy ∧ x.owner = none := by
  obtain ⟨g, a, b, e, dropped, _⟩ := dropLane_own (Origin.onLane_lane path) occupancy owner
  obtain ⟨w, o, asked, _⟩ := askPrompt_spec .reconnecting
    ((dropLane false s).updCoc fun c => { c with recoveries := satInc c.recoveries, searchDeadline := some (s.now + searchTime) })
  have mask : State.laneMask { s with lanes := s.lanes.set l ((s.lane l).released s.now g) } = s.laneMask :=
    laneMask_set rfl (LaneEntry.not_free_of_owner owner) (LaneEntry.not_free_of_busy rfl)
  have recovers : originLaneLoss s = recoverCall st s := by
    unfold originLaneLoss
    rw [Origin.onLane_peer path]
    dsimp only
    rw [if_neg fun h => absurd (state.symm.trans h.1) (by decide), if_pos (.inr state)]
  obtain ⟨k, told⟩ := handOver_into (s := s)
    (u := { s with
      coc := s.coc.rejoins s.now, lamp := s.lampFor .seek, csw := w, out := o,
      lanes := s.lanes.set l ((s.lane l).released s.now g), engines := s.engines.set .e0 e })
    (claimFrame st s.coc.tag .rejoin s.laneMask) rfl rfl
  refine ⟨_, e, w, o, k, recovers.trans (Eq.trans ?_ told), rfl, rfl⟩
  unfold recoverCall beginRecovery
  have now : (dropLane false s).now = s.now := by rw [dropped]
  rw [now, asked, dropped]
  unfold sendClaim
  rw [← mask]
  rfl

/-! ## A carriage waits for its origin (R93) -/

/-- R146: a prompt changes no route; where it plays, its player is the overlay. -/
theorem requestPrompt_slots (p : PlayerId) (o : Owner) (q : Prompt) (r : BitVec 4) (g : Time) (s : State) :
    (∀ d, ((requestPrompt p o q r g s).csw.slot d).owner = (s.csw.slot d).owner) ∧
    ((s.csw.slot (playerDest p)).overlay ≠ some .ident →
      ((requestPrompt p o q r g s).csw.slot (playerDest p)).overlay = some .player) := by
  have starts (u : State) :
      (∀ d, ((startPrompt p o q r g u).csw.slot d).owner = (u.csw.slot d).owner) ∧
      ((startPrompt p o q r g u).csw.slot (playerDest p)).overlay = some .player := by
    refine ⟨fun d => ?_, congrArg Slot.overlay (Switch.slot_setSlot_self _ _ _)⟩
    by_cases same : d = playerDest p
    · subst same; exact (congrArg Slot.owner (Switch.slot_setSlot_self _ _ _)).trans (by cases p <;> rfl)
    · exact congrArg Slot.owner ((Switch.slot_setSlot_ne _ _ same).trans rfl)
  unfold requestPrompt
  split
  next burst => exact ⟨fun _ => rfl, fun free => absurd burst free⟩
  next =>
    dsimp only
    rw [signalOwner_form]
    exact ⟨(starts _).1, fun _ => (starts _).2⟩
  next => exact ⟨(starts s).1, fun _ => (starts s).2⟩

theorem Carriage.phase_of_state {c : Carriage} {p : ResumeState} (state : c.state = p.state) : c.phase = some p := by
  unfold Carriage.phase Carriage.waiting
  rw [state]
  cases p <;> rfl

/-- R93: the record as it waits for its origin. -/
def Carriage.awaits (c : Carriage) (p : ResumeState) (now : Time) : Carriage :=
  { c with state := .awaitRejoin, resume := some p, lane := none, rejoinDeadline := some (now + rejoinTime) }

/-- R93: what a carriage that waits for its origin leaves of the switch. -/
structure HoldsLine (m : Mod) (c w : Switch) (now : Time) : Prop where
  routes : ∀ d, (w.slot d).owner ≠ some (.carriage m)
  overlay : (c.modTx.get m).overlay ≠ some .ident → (w.modTx.get m).overlay = some .player
  plays : (c.modTx.get m).overlay ≠ some .ident → w.players.get (modPlayer m) =
    { state := .playing, owner := some (.carriage m), prompt := some .holdLine, repeats := 0, gap := holdLineGap, playsDone := 0,
      since := now }

/-- R93, R97: the lane of a carriage is lost. -/
theorem enterAwaitRejoin_own {s : State} {m : Mod} {c : Carriage} {l : Lane} {p : ResumeState} (car : s.car m = some c)
    (state : c.state = p.state) (lane : c.lane = some l) (occupancy : (s.lane l).occupancy = .own)
    (owner : (s.lane l).owner = some (.carriage m)) :
    ∃ g e w o, enterAwaitRejoin m s =
      { s with
        carriages := s.carriages.set m (some (c.awaits p s.now)), lanes := s.lanes.set l ((s.lane l).released s.now g),
        engines := s.engines.set (engineOf (.carriage m)) e, csw := w, out := o } ∧
      HoldsLine m s.csw w s.now := by
  obtain ⟨x, a, b, e, ns, released, by_⟩ := releaseLane_eq l (.carriage m) { s with csw := s.csw.without (.carriage m) }
  obtain ⟨rfl, g, rfl⟩ := by_.own occupancy owner
  let v : State :=
    { s with
      carriages := s.carriages.set m (some (c.awaits p s.now)), lanes := s.lanes.set l ((s.lane l).released s.now g),
      engines := s.engines.set (engineOf (.carriage m)) e,
      csw := { s.csw.without (.carriage m) with gapA := a, gapB := b } }
  obtain ⟨w, o, asked, plays⟩ := requestPrompt_spec (modPlayer m) (.carriage m) .holdLine 0 holdLineGap v
  obtain ⟨owners, overlay⟩ := requestPrompt_slots (modPlayer m) (.carriage m) .holdLine 0 holdLineGap v
  rw [asked] at owners overlay
  have gives : releaseCarriageLane m (clearRoutes (.carriage m) s) =
      { s with
        carriages := s.carriages.set m (some { c with lane := none }), lanes := s.lanes.set l ((s.lane l).released s.now g),
        engines := s.engines.set (engineOf (.carriage m)) e,
        csw := { s.csw.without (.carriage m) with gapA := a, gapB := b } } := by
    have car' : (clearRoutes (.carriage m) s).car m = some c := car
    unfold releaseCarriageLane
    rw [car']
    dsimp only
    rw [lane]
    dsimp only
    rw [clearRoutes_eq, released, List.append_nil]
    exact State.updCar_eq (c := c) (by exact car) _
  have waits : enterAwaitRejoin m s = requestHoldLine m v := by
    unfold enterAwaitRejoin
    rw [car]
    dsimp only
    rw [Carriage.phase_of_state state]
    dsimp only
    rw [gives]
    refine congrArg (requestHoldLine m) ((State.updCar_eq (c := { c with lane := none }) (by exact PerMod.get_set_self _ _ _) _).trans ?_)
    simp only [State.setCar, PerMod.set_set]
    rfl
  have dest : playerDest (modPlayer m) = .modTx m := by cases m <;> rfl
  have burst (free : (s.csw.modTx.get m).overlay ≠ some .ident) : (v.csw.slot (playerDest (modPlayer m))).overlay ≠ some .ident := by
    rw [dest]
    exact ne_of_eq_of_ne ((congrArg Slot.overlay (Switch.without_slot (.carriage m) s.csw (.modTx m))).trans
      (Slot.clearOwned_overlay _ _)) free
  refine ⟨g, e, w, o, waits.trans asked, fun d => ?_, fun free => ?_, fun free => plays (burst free)⟩
  · rw [show (w.slot d).owner = _ from owners d]
    have kept : v.csw.slot d = (s.csw.without (.carriage m)).slot d := by cases d <;> rfl
    rw [kept]
    exact Switch.without_owner _ _ _
  · rw [dest] at overlay burst
    exact overlay (burst free)

/-- Settles O53: a gap is marked and silenced, its end is a dropout, and at 400 ms it is a lane loss. -/
theorem gapsOfASupervisedLane : Obligations.GapsOfASupervisedLane := by
  unfold Obligations.GapsOfASupervisedLane
  refine ⟨fun t g l s reset occupancy owner supervised untested => ⟨fun heard => ?_, fun silent gap => ?_,
    fun st gap due state path => ?_⟩,
    fun t g l m c s reset occupancy owner supervised car => ⟨fun heard => ?_, fun silent gap untested => ?_,
      fun p gap due lane state => ?_⟩⟩
  · exact ⟨_, exec_local (c := .carrierNotHeard t l .b) rfl reset
      (carrierFalls_supervised (s := startEvent t s) occupancy owner (by decide) supervised heard), rfl⟩
  · obtain ⟨es, rises⟩ := carrierRises_supervised (s := startEvent t s) occupancy owner (by decide) supervised silent gap untested
    exact ⟨_, exec_local (c := .carrierHeard t l .b) rfl reset rises, rfl⟩
  · obtain ⟨h, a, b, lost⟩ := loseLane_due (s := startEvent t s) owner supervised gap due
    obtain ⟨x, e, w, o, k, recovers, busy, free⟩ := originLaneLoss_recovers (s := {
        startEvent t s with
        lanes := s.lanes.set l { s.lane l with supervised := false, gapStart := h },
        csw := { s.csw with gapA := a, gapB := b },
        counters := { s.counters with laneLosses := satInc s.counters.laneLosses } }) state path
      (by simp only [State.lane, PerLane.get_set_self]; exact occupancy)
      (by simp only [State.lane, PerLane.get_set_self]; exact owner)
    have mask : State.laneMask { startEvent t s with
        lanes := s.lanes.set l { s.lane l with supervised := false, gapStart := h } } = s.laneMask :=
      laneMask_set (s := s) rfl (LaneEntry.not_free_of_owner owner) (LaneEntry.not_free_of_owner owner)
    have run := lost.trans recovers
    have left := exec_unnoticed (c := .laneLoss t l) rfl reset run ⟨rfl, rfl, rfl, handOver_dupFault _ _, rfl, rfl⟩
    have entry : ((s.lanes.set l { s.lane l with supervised := false, gapStart := h }).set l x).get l = x :=
      PerLane.get_set_self _ _ _
    obtain ⟨k', path'⟩ := path
    refine ⟨_, left, ?_, rfl, rfl, ⟨k', congrArg (Option.map _) path'⟩, rfl, rfl, rfl, rfl, rfl, rfl, rfl,
      (congrArg LaneEntry.occupancy entry).trans busy,
      (congrArg LaneEntry.owner entry).trans free, State.lampFor_requested _ _, ?_⟩
    · simp only [State.lane, PerLane.get_set_self, PerLane.set_set]
    · rw [← mask]
      exact handOver_band_congr _ (by rfl) (by rfl)
  · exact ⟨_, exec_local (c := .carrierNotHeard t l .a) rfl reset
      (carrierFalls_supervised (s := startEvent t s) occupancy owner (by nofun) supervised heard), rfl⟩
  · obtain ⟨es, rises⟩ := carrierRises_supervised (s := startEvent t s) occupancy owner (by nofun) supervised silent gap untested
    have run := rises.trans (congrArg (fun u : State => { u with engines := es }) (reportDropout_carriage (c := c) (by exact car)))
    exact ⟨_, exec_local (c := .carrierHeard t l .a) rfl reset run, rfl⟩
  · obtain ⟨h, a, b, lost⟩ := loseLane_due (s := startEvent t s) owner supervised gap due
    obtain ⟨h', e, w, o, awaits, holds⟩ := enterAwaitRejoin_own (m := m) (c := c) (l := l) (p := p) (s := {
        startEvent t s with
        lanes := s.lanes.set l { s.lane l with supervised := false, gapStart := h },
        csw := { s.csw with gapA := a, gapB := b },
        counters := { s.counters with laneLosses := satInc s.counters.laneLosses } }) car state lane
      (by simp only [State.lane, PerLane.get_set_self]; exact occupancy)
      (by simp only [State.lane, PerLane.get_set_self]; exact owner)
    have reported (u : State) (car : u.car m = some c) : carriageLaneLoss m u = enterAwaitRejoin m u := by
      have supervises : c.supervisedState = true := by unfold Carriage.supervisedState; rw [state]; cases p <;> rfl
      unfold carriageLaneLoss
      rw [car]
      exact if_pos supervises
    have run := lost.trans ((reported _ (by exact car)).trans awaits)
    have left := exec_unnoticed (c := .laneLoss t l) rfl reset run ⟨rfl, rfl, rfl, rfl, rfl, rfl⟩
    have entry (y : LaneEntry) : ((s.lanes.set l { s.lane l with supervised := false, gapStart := h }).set l y).get l = y :=
      PerLane.get_set_self _ _ _
    refine ⟨_, left, ?_, congrArg LaneEntry.occupancy (entry _), congrArg LaneEntry.owner (entry _),
      congrArg LaneEntry.supervised (entry _), (congrArg LaneEntry.quarantineUntil (entry _)).trans ?_,
      holds.routes (.modTx m), holds.routes (.lane l), fun free => ?_⟩
    · simp only [State.lane, PerLane.get_set_self, PerLane.set_set]
      rfl
    · simp only [State.lane, LaneEntry.released, PerLane.get_set_self]
    · have plays := holds.plays free
      exact ⟨congrArg Player.prompt plays, congrArg Player.state plays, congrArg Player.repeats plays,
        congrArg Player.gap plays, holds.overlay free⟩

end Sys2Proof.Machine

/-! # The power-cycle of a module (06, 6.4; 05, 5.5; 03, 3.5, 3.6) -/

namespace Sys2Proof.Machine

/-- R105: the module as it is switched off. -/
def Module.switchedOff (r : Module) (now : Time) : Module :=
  { r with
    power := false, inFlight := none, pendingOrder := none, poweringDeadline := none, rescanDue := none,
    progressDeadline := none, table := [], selected := none, timeouts := 0, powerCycles := r.powerCycles + 1,
    callInProgress := false, state := if r.powerCycles + 1 < 3 then .fault else .disabled,
    powerOnTime := some (now + if r.powerCycles + 1 < 3 then ms 1000 else ms 600000) }

theorem Module.switchedOff_grantable {r x : Module} (now : Time) (state : x.state = (r.switchedOff now).state) :
    x.grantable = false := by
  have off : x.state = .fault ∨ x.state = .disabled := by
    rw [state]; unfold Module.switchedOff; dsimp only; split <;> simp
  rcases off with h | h
  · exact Module.grantable_of_state (by rw [h]; decide) (by rw [h]; decide)
  · exact Module.grantable_of_state (by rw [h]; decide) (by rw [h]; decide)

/-- R2: a module that is switched off serves no path. -/
theorem Module.switchedOff_usable {r x : Module} (now : Time) (table : x.table = (r.switchedOff now).table) :
    x.usableAsPath = false := by
  unfold Module.usableAsPath
  rw [table, show hasUsable (r.switchedOff now).table = false from rfl, Bool.and_false]

/-- R105: the state as a module is switched off. -/
def State.off (s : State) (m : Mod) : State :=
  { s with
    modules := s.modules.set m ((s.mod m).switchedOff s.now),
    counters := { s.counters with moduleFaults := satInc s.counters.moduleFaults } }

section
variable {m : Mod} {s : State} {n : Nat}

/-- R105: switching off does not depend on the timeouts counted. -/
theorem switchOff_timeouts : switchOff m (s.withMod m { s.mod m with timeouts := n } s.out) = s.off m := by
  unfold switchOff
  rw [State.updMod_withMod]
  rfl

/-- R93, R105: the power-cycle, whatever timeouts were counted. -/
theorem powerCycle_eq :
    powerCycle m (s.withMod m { s.mod m with timeouts := n } s.out) =
      if (s.mod m).link then carriageModuleFault m (s.off m) else s.off m := by
  unfold powerCycle
  dsimp only
  rw [switchOff_timeouts, State.withMod_mod]

/-- R103 to R106: what power-cycles a module. -/
def PowerCycles (i : Instr) (t : Time) (m : Mod) (s : State) : Prop :=
  ∃ op n, exec i s = .next (event t op s) ∧
    op (startEvent t s) = powerCycle m ((startEvent t s).withMod m { s.mod m with timeouts := n } [])

/-- R104: an order in flight that is due. -/
theorem orderTimesOut_cycles {k : OrderKind} {act : State → State} {o : OrderInFlight} (flight : (s.mod m).inFlight = some o)
    (kind : o.kind = k) (due : o.deadline ≤ s.now)
    (acts : (s.mod m).timeouts = 2 ∨ act = powerCycle m) :
    orderTimesOut m k act s = powerCycle m (s.withMod m { s.mod m with timeouts := (s.mod m).timeouts + 1 } s.out) := by
  have due' : orderDue m k s = true := by
    unfold orderDue; rw [flight]; exact Bool.and_eq_true_iff.mpr ⟨by simpa using kind, decide_eq_true due⟩
  unfold orderTimesOut
  rw [if_pos due']
  dsimp only
  rw [State.updMod_eq, State.withMod_mod]
  rcases acts with third | same
  · exact if_pos (by dsimp only; omega)
  · rw [same, ite_self]

theorem onReport_cycles {act : State → State} {t : Time} (power : (s.mod m).power = true)
    (acts : act ((startEvent t s).withMod m { s.mod m with timeouts := 0 } []) =
      powerCycle m ((startEvent t s).withMod m { s.mod m with timeouts := 0 } [])) :
    onReport m act (startEvent t s) = powerCycle m ((startEvent t s).withMod m { s.mod m with timeouts := 0 } []) :=
  onReport_start power acts

/-- R106: a READY in any state but POWERING. -/
theorem readyReport_cycles {r : Module} {out : List Output} (state : r.state ≠ .powering) :
    readyReport m (s.withMod m r out) = powerCycle m (s.withMod m r out) := by
  unfold readyReport
  rw [State.withMod_mod]
  exact if_neg state

theorem poweringExpires_cycles {d : Time} (state : (s.mod m).state = .powering) (deadline : (s.mod m).poweringDeadline = some d)
    (due : d ≤ s.now) :
    poweringExpires m s = powerCycle m (s.withMod m { s.mod m with timeouts := (s.mod m).timeouts } s.out) := by
  have due' : s.due (s.mod m).poweringDeadline = true := by rw [deadline]; exact decide_eq_true due
  exact (if_pos ⟨state, due'⟩).trans (congrArg (powerCycle m) (State.withMod_self s m).symm)

end

/-! ## The carriage of the module (R93, R97) -/

section
variable {s : State} {m : Mod} {c : Carriage}

theorem carriageModuleFault_clearing (car : s.car m = some c) (clearing : c.state = .clearing) :
    carriageModuleFault m s = removeCarriage m s := by
  unfold carriageModuleFault; rw [car]; exact if_pos clearing

theorem carriageModuleFault_peer (car : s.car m = some c) (calls : c.state ≠ .clearing) (peer : c.kind = .peer) :
    carriageModuleFault m s = removeCarriage m (handOver (releaseFrame c.origin c.tag .moduleFault) s) := by
  unfold carriageModuleFault; rw [car]; exact (if_neg calls).trans (endCarriage_peer car peer)

theorem carriageModuleFault_local (car : s.car m = some c) (calls : c.state ≠ .clearing) (loc : c.kind = .loc) :
    carriageModuleFault m s = removeCarriage m (s.notify (.localEnd .moduleFault)) := by
  unfold carriageModuleFault
  rw [car]
  refine (if_neg calls).trans ?_
  unfold endCarriage endReport
  rw [car]
  dsimp only
  rw [loc]

end

/-- R93, R97, R105: what is left of a carriage whose module has been power-cycled. -/
def ModuleGone (t : Time) (m : Mod) (c : Carriage) (s u : State) : Prop :=
  u = { startEvent t s with
        coc := u.coc, lamp := u.lamp, modules := s.modules.set m ((s.mod m).switchedOff (max s.now t)).freed,
        carriages := s.carriages.set m none, csw := u.csw, lanes := u.lanes, engines := u.engines, band := u.band,
        counters := u.counters, sched := u.sched, out := u.out } ∧
    u.counters.moduleFaults = satInc s.counters.moduleFaults ∧
    (u.engine (engineOf (.carriage m))).user = none ∧ (∀ x, (u.csw.slot x).owner ≠ some (.carriage m)) ∧
    (c.lane = none → u.lanes = s.lanes) ∧
    ∀ l, c.lane = some l → (s.lane l).occupancy = .own → (s.lane l).owner = some (.carriage m) →
      u.lanes = s.lanes.set l
        { s.lane l with
          occupancy := .busy, owner := none, supervised := false, gapStart := (u.lane l).gapStart,
          quietSince :=
            if (s.lane l).carrierA = true ∨ (s.lane l).carrierB = true then none else some (max s.now t) }

theorem moduleGone_of_removed {t : Time} {s v u : State} {m : Mod} {c : Carriage} {b : Band} {n : Counters} {ns : List Notice}
    (removed : Removed m c { startEvent t s with
      modules := s.modules.set m ((s.mod m).switchedOff (max s.now t)), band := b, counters := n, notices := ns } v)
    (faults : n.moduleFaults = satInc s.counters.moduleFaults)
    (form : u = { v with coc := u.coc, lamp := u.lamp, csw := u.csw, out := u.out, sched := u.sched, notices := [] })
    (routes : ∀ d, (u.csw.slot d).owner ≠ some (.carriage m)) : ModuleGone t m c s u := by
  obtain ⟨_, _, given⟩ := removed.lanes
  have left := removed.form
  have entry : (s.modules.set m ((s.mod m).switchedOff (max s.now t))).get m = (s.mod m).switchedOff (max s.now t) :=
    PerMod.get_set_self _ _ _
  have freed : v.mod m = ((s.mod m).switchedOff (max s.now t)).freed :=
    (removed.off (congrArg Module.callInProgress entry) (congrArg Module.power entry)).trans (congrArg Module.freed entry)
  rw [freed] at left
  simp only [PerMod.set_set] at left
  have lanes : u.lanes = v.lanes := (congrArg State.lanes form).trans rfl
  have engines : u.engines = v.engines := (congrArg State.engines form).trans rfl
  have set : v.engines = s.engines.set (engineOf (.carriage m)) (v.engine (engineOf (.carriage m))) :=
    (congrArg State.engines left).trans rfl
  have counters : u.counters = n := (congrArg State.counters form).trans ((congrArg State.counters left).trans rfl)
  have band : u.band = b := (congrArg State.band form).trans ((congrArg State.band left).trans rfl)
  refine ⟨?_, by rw [counters]; exact faults, ?_, routes, fun none => lanes.trans (given.without none).1,
    fun l held own owner => ?_⟩
  · rw [lanes, engines, set, band, counters]
    exact form.trans ((congrArg (fun w : State => { w with
      coc := u.coc, lamp := u.lamp, csw := u.csw, out := u.out, sched := u.sched, notices := [] }) left).trans rfl)
  · unfold State.engine; rw [engines]; exact removed.user
  · have kept := given.entry held own owner
    unfold State.lane
    rw [lanes]
    exact kept

/-! ## The origin record of a LOCAL call (R47, R52) -/

theorem Switch.without_keeps {o a : Owner} {c : Switch} {d : Dest} (not : (c.slot d).owner ≠ some a) :
    ((c.without o).slot d).owner ≠ some a := by
  rw [Switch.without_slot]
  unfold Slot.clearOwned
  split
  · nofun
  · exact not

/-- R47, R52: the record as it seeks again after its LOCAL path has failed. -/
structure SeeksAgain (c x : Origin) (own : Station) (now : Time) : Prop where
  state : x.state = .seeking
  path : x.path = none
  retry : x.retryTime = some (now + ms 2000)
  deadline : x.searchDeadline.isSome = true
  unanswered : c.answered = false → x.tag = c.tag ∧ x.avoid = avoidWith c.avoid own now ∧ x.recoveries = c.recoveries
  answered : c.answered = true → x.tag = c.tagCounter + 1 ∧ x.avoid = c.avoid ∧ x.recoveries = satInc c.recoveries ∧
    x.searchDeadline = some (now + ms 180000)

section
variable {s : State}

/-- R47: a LOCAL call ends with its module before it was answered. -/
theorem afterDrop_unanswered {p : Path} (path : s.coc.path = some p) (fresh : s.coc.answered = false) (alone : s.noCandidate) :
    pathEnds.afterDrop s =
      { s with
        coc := ({ s.coc with avoid := avoidWith s.coc.avoid p.station s.now } : Origin).waiting s.now,
        lamp := s.lampFor .seek } := by
  have avoided : avoidPath s = { s with coc := { s.coc with avoid := avoidWith s.coc.avoid p.station s.now } } := by
    unfold avoidPath; rw [path]; rfl
  unfold pathEnds.afterDrop
  rw [fresh, avoided]
  exact enterSeeking_noCandidate alone

/-- R49, R52: the record as it begins a fresh search after an answered call. -/
def Origin.recovered (c : Origin) (now : Time) : Origin :=
  ({ c.pathless with
     recoveries := satInc c.recoveries, searchDeadline := some (now + searchTime), claimKind := .new, attempts := 0,
     tagCounter := c.tagCounter + 1, tag := c.tagCounter + 1 } : Origin).waiting now

/-- R49: the recovery is counted and the caller told; no route changes. -/
theorem beginRecovery_spec (s : State) :
    ∃ w o, beginRecovery s =
      { s with
        coc := { s.coc with
          recoveries := satInc s.coc.recoveries, searchDeadline := some (s.now + searchTime), state := .recovering },
        lamp := s.lampFor .seek, csw := w, out := o } ∧
      ∀ d, (w.slot d).owner = (s.csw.slot d).owner := by
  obtain ⟨w, o, asked, _⟩ := askPrompt_spec .reconnecting
    (s.updCoc fun c => { c with recoveries := satInc c.recoveries, searchDeadline := some (s.now + searchTime) })
  have owners := (requestPrompt_slots .s .origin .reconnecting 1 0
    (s.updCoc fun c => { c with recoveries := satInc c.recoveries, searchDeadline := some (s.now + searchTime) })).1
  have same (u : State) : requestPrompt .s .origin .reconnecting 1 0 u = askPrompt .reconnecting u := rfl
  rw [same, asked] at owners
  exact ⟨w, o, (congrArg (enterOrigin .recovering) asked).trans rfl, owners⟩

/-- R47, R52: an answered call begins a fresh search. -/
theorem afterDrop_answered (answered : s.coc.answered = true) (state : s.coc.state = .dialing ∨ s.coc.state = .connected)
    (alone : s.noCandidate) :
    ∃ k w o, pathEnds.afterDrop s = { s with coc := s.coc.recovered s.now, lamp := k, csw := w, out := o } ∧
      k.requested = .seek ∧ ∀ d, (w.slot d).owner = (s.csw.slot d).owner := by
  obtain ⟨w, o, begun, owners⟩ := beginRecovery_spec s
  have searches : pathEnds.afterDrop s =
      enterSeeking ((drawTag ((beginRecovery s).updCoc fun c => { c.pathless with claimKind := .new, attempts := 0 })).updCoc
        fun c => { c with searchDeadline := some ((beginRecovery s).now + searchTime) }) := by
    unfold pathEnds.afterDrop freshSearch
    rw [if_pos answered, if_pos state]
  rw [begun] at searches
  exact ⟨_, w, o, searches.trans (enterSeeking_noCandidate alone), State.lampFor_requested _ _, owners⟩

/-- R47: the LOCAL call of the record ends with its module, and no other path is left. -/
theorem localEnds_seeks {m : Mod} (path : s.coc.path = some { kind := .loc, station := s.own, module := some m, lane := none })
    (state : s.coc.state = .dialing ∨ s.coc.state = .connected) (alone : s.noCandidate) :
    ∃ x k w o, localEnds .moduleFault s = { s with coc := x, lamp := k, csw := w, out := o } ∧
      SeeksAgain s.coc x s.own s.now ∧ k.requested = .seek ∧
      ∀ a d, (s.csw.slot d).owner ≠ some a → (w.slot d).owner ≠ some a := by
  have loc : s.onLocalPath = true := by unfold State.onLocalPath; rw [path]; rfl
  have noLane : s.coc.lane = none := by unfold Origin.lane; rw [path]
  have ends : localEnds .moduleFault s = pathEnds.afterDrop { s with csw := s.csw.without .origin } := by
    unfold localEnds
    rw [if_pos ⟨loc, state⟩]
    exact congrArg pathEnds.afterDrop (dropLane_none false noLane)
  cases answered : s.coc.answered with
  | false =>
    refine ⟨_, _, _, _, ends.trans (afterDrop_unanswered (s := { s with csw := s.csw.without .origin }) path answered alone),
      ⟨rfl, rfl, rfl, ?_, fun _ => ⟨rfl, rfl, rfl⟩, fun h => absurd (answered.symm.trans h) Bool.false_ne_true⟩,
      State.lampFor_requested _ _, fun a d not => Switch.without_keeps not⟩
    show (Origin.seeking _ _).searchDeadline.isSome = true
    unfold Origin.seeking
    dsimp only
    split
    · rfl
    · rfl
  | true =>
    obtain ⟨k, w, o, again, seek, owners⟩ :=
      afterDrop_answered (s := { s with csw := s.csw.without .origin }) answered state alone
    exact ⟨_, k, w, o, ends.trans again,
      ⟨rfl, rfl, rfl, rfl, fun h => absurd (h.symm.trans answered) Bool.false_ne_true, fun _ => ⟨rfl, rfl, rfl, rfl⟩⟩,
      seek, fun a d not => ne_of_eq_of_ne (owners d) (Switch.without_keeps not)⟩

/-- R47: an event whose operation tells the record the end of its LOCAL call. -/
theorem event_localEnd {t : Time} {op : State → State} {v u : State} {r : ReleaseReason} (reset : s.inReset = false)
    (run : op (startEvent t s) = v) (notices : v.notices = [.localEnd r]) (freed : freedNotices (startEvent t s) v = [])
    (ends : localEnds r { v with notices := [] } = u) (quiet : u.notices = []) (modules : u.modules = v.modules) :
    event t op s = offerSync (startEvent t s) u := by
  have kept : noting op (startEvent t s) = v := by rw [noting, run, noteFreed_eq, freed, List.append_nil]
  have handled : noting (localEnds r) { v with notices := [] } = u := by
    rw [noting, ends, noteFreed_eq, freedNotices_of_modules (s0 := { v with notices := [] }) modules, List.append_nil]
  have drained : drain noticeFuel v = u := by
    unfold noticeFuel drain
    rw [notices]
    exact (congrArg (drain 63) handled).trans (drain_nil _ quiet)
  rw [event_eq t op s reset, kept, drained]

end

/-! ## The events -/

/-- R103 to R106: each cause power-cycles the module. -/
theorem powerCycles_of {t d : Time} {m : Mod} {s : State} {i : Instr} {timesOut : OrderKind → Prop}
    (order : ∀ k, timesOut k → ∃ o : OrderInFlight, (s.mod m).inFlight = some o ∧ o.kind = k ∧ o.deadline ≤ max s.now t)
    (cause : (i = .fault t m ∧ (s.mod m).power = true) ∨
      (i = .ready t m ∧ (s.mod m).power = true ∧ (s.mod m).state ≠ .powering) ∨
      (i = .poweringDeadline t m ∧ (s.mod m).state = .powering ∧ (s.mod m).poweringDeadline = some d ∧ d ≤ max s.now t) ∨
      (i = .hangupTimeout t m ∧ timesOut .hangup) ∨ (i = .scanTimeout t m ∧ timesOut .scan ∧ (s.mod m).timeouts = 2) ∨
      (i = .selectTimeout t m ∧ timesOut .select ∧ (s.mod m).timeouts = 2) ∨
      (i = .dialTimeout t m ∧ timesOut .dial ∧ (s.mod m).timeouts = 2) ∨
      (i = .abortTimeout t m ∧ timesOut .abort ∧ (s.mod m).timeouts = 2)) :
    PowerCycles i t m s := by
  have times {k : OrderKind} {act : State → State} (out : timesOut k)
      (acts : (s.mod m).timeouts = 2 ∨ act = powerCycle m) :
      orderTimesOut m k act (startEvent t s) =
        powerCycle m ((startEvent t s).withMod m { s.mod m with timeouts := (s.mod m).timeouts + 1 } []) := by
    obtain ⟨o, flight, kind, due⟩ := order k out
    exact orderTimesOut_cycles (s := startEvent t s) flight kind due acts
  rcases cause with ⟨rfl, power⟩ | ⟨rfl, power, state⟩ | ⟨rfl, state, deadline, due⟩ | ⟨rfl, out⟩ | ⟨rfl, out, third⟩ |
    ⟨rfl, out, third⟩ | ⟨rfl, out, third⟩ | ⟨rfl, out, third⟩
  · exact ⟨_, _, rfl, onReport_cycles power rfl⟩
  · exact ⟨_, _, rfl, onReport_cycles power (readyReport_cycles state)⟩
  · exact ⟨_, _, rfl, poweringExpires_cycles (s := startEvent t s) state deadline due⟩
  · exact ⟨_, _, rfl, times out (.inr rfl)⟩
  all_goals exact ⟨_, _, rfl, times out (.inl third)⟩

section
variable {t : Time} {m : Mod} {c : Carriage} {s : State} {i : Instr}

/-- R105: a module without a carriage is power-cycled. -/
theorem powerCycles_alone (cycles : PowerCycles i t m s) (reset : s.inReset = false) (link : (s.mod m).link = false) :
    exec i s = .next (offerSync (startEvent t s) ((startEvent t s).off m)) := by
  obtain ⟨op, n, arm, run⟩ := cycles
  have cycled := run.trans ((powerCycle_eq (s := startEvent t s)).trans (if_neg (by
    rw [show (startEvent t s).mod m = s.mod m from rfl, link]; decide)))
  rw [arm, event_sync reset cycled rfl (freedNotices_set (m := m) rfl fun _ =>
    Module.switchedOff_grantable (r := s.mod m) (max s.now t) rfl)]

/-- R93, R97: the carriage of a power-cycled module, unless it is LOCAL with a call. -/
theorem powerCycles_removes (cycles : PowerCycles i t m s) (reset : s.inReset = false) (link : (s.mod m).link = true)
    (car : s.car m = some c) (told : c.kind = .peer ∨ c.state = .clearing) (calm : s.calm) :
    ∃ u, exec i s = .next u ∧ ModuleGone t m c s u ∧ u.coc = s.coc ∧ u.lamp = s.lamp ∧
      u.band =
        if c.state = .clearing then s.band else (handOver (releaseFrame c.origin c.tag .moduleFault) s).band := by
  obtain ⟨op, n, arm, run⟩ := cycles
  have cycled := run.trans ((powerCycle_eq (s := startEvent t s)).trans (if_pos link))
  have kept : s.carriages.set m (some c) = s.carriages := congrArg State.carriages (State.setCar_self car)
  obtain ⟨b, k, dup, band, removes⟩ : ∃ b k, b.dupFault = s.band.dupFault ∧
      (b = if c.state = .clearing then s.band else (handOver (releaseFrame c.origin c.tag .moduleFault) s).band) ∧
      op (startEvent t s) = removeCarriage m { startEvent t s with
        modules := s.modules.set m ((s.mod m).switchedOff (max s.now t)), carriages := s.carriages.set m (some c),
        band := b, counters := { s.counters with moduleFaults := satInc s.counters.moduleFaults, framesDropped := k } } := by
    rw [kept]
    by_cases clearing : c.state = .clearing
    · exact ⟨s.band, s.counters.framesDropped, rfl, (if_pos clearing).symm,
        cycled.trans (carriageModuleFault_clearing (by exact car) clearing)⟩
    · obtain ⟨k, into⟩ := handOver_into (s := s) (u := (startEvent t s).off m) (releaseFrame c.origin c.tag .moduleFault) rfl rfl
      exact ⟨_, k, handOver_dupFault _ _, (if_neg clearing).symm,
        cycled.trans ((carriageModuleFault_peer (by exact car) clearing (told.resolve_right clearing)).trans
          (congrArg (removeCarriage m) into))⟩
  obtain ⟨v, removed, ended⟩ := event_removed reset calm removes dup
  have coc := congrArg State.coc removed.form
  have lamp := congrArg State.lamp removed.form
  have same := congrArg State.band removed.form
  rw [kept] at removed
  exact ⟨_, arm.trans (congrArg _ ended), moduleGone_of_removed removed rfl rfl removed.routes, coc, lamp, same.trans band⟩

/-- R47, R52, R93: the LOCAL call of a power-cycled module. -/
theorem powerCycles_local (cycles : PowerCycles i t m s) (reset : s.inReset = false) (link : (s.mod m).link = true)
    (car : s.car m = some c) (loc : c.kind = .loc) (calls : c.state ≠ .clearing) (lane : c.lane = none)
    (state : s.coc.state = .dialing ∨ s.coc.state = .connected)
    (path : s.coc.path = some { kind := .loc, station := s.own, module := some m, lane := none })
    (offers : s.offerTable = []) (others : ∀ n, n ≠ m → (s.mod n).usableAsPath = false) :
    ∃ u, exec i s = .next u ∧ ModuleGone t m c s u ∧ u.band = s.band ∧ SeeksAgain s.coc u.coc s.own (max s.now t) ∧
      u.lamp.requested = .seek := by
  obtain ⟨op, n, arm, run⟩ := cycles
  have removes := (run.trans ((powerCycle_eq (s := startEvent t s)).trans (if_pos link))).trans
    (carriageModuleFault_local (c := c) (by exact car) calls loc)
  obtain ⟨v, left⟩ : ∃ v, removeCarriage m (((startEvent t s).off m).notify (.localEnd .moduleFault)) = v := ⟨_, rfl⟩
  have removed := removeCarriage_removed (s := ((startEvent t s).off m).notify (.localEnd .moduleFault)) (c := c) (by exact car)
  rw [left] at removes removed
  have form := removed.form
  obtain ⟨ns, notices, given⟩ := removed.lanes
  obtain rfl : ns = [] := (given.without lane).2
  have entry : (s.modules.set m ((s.mod m).switchedOff (max s.now t))).get m = (s.mod m).switchedOff (max s.now t) :=
    PerMod.get_set_self _ _ _
  have freed : v.mod m = ((s.mod m).switchedOff (max s.now t)).freed :=
    (removed.off (congrArg Module.callInProgress entry) (congrArg Module.power entry)).trans (congrArg Module.freed entry)
  have modules : v.modules = s.modules.set m ((s.mod m).switchedOff (max s.now t)).freed := by
    refine (congrArg State.modules form).trans ?_
    rw [freed]
    exact PerMod.set_set _ _ _ _
  have alone : State.noCandidate { v with notices := [] } := by
    refine ⟨List.any_eq_false.mpr fun r mem => ?_, (congrArg State.offerTable form).trans offers⟩
    obtain ⟨k, rfl⟩ : ∃ k, r = v.modules.get k := by
      rcases List.mem_cons.mp mem with h | h
      · exact ⟨.a, h⟩
      · exact ⟨.b, List.mem_singleton.mp h⟩
    rw [modules, Bool.not_eq_true]
    by_cases same : k = m
    · subst same
      exact (congrArg Module.usableAsPath (PerMod.get_set_self _ _ _)).trans (Module.switchedOff_usable (r := s.mod k) (max s.now t) rfl)
    · exact (congrArg Module.usableAsPath (PerMod.get_set_ne _ _ _ _ same)).trans (others k same)
  have coc : v.coc = s.coc := (congrArg State.coc form).trans rfl
  have straps : v.straps = s.straps := (congrArg State.straps form).trans rfl
  have now : v.now = max s.now t := (congrArg State.now form).trans rfl
  have own : v.own = s.own := by unfold State.own; rw [straps]
  obtain ⟨x, k, w, o, ends, seeks, lit, routes⟩ := localEnds_seeks (m := m) (s := { v with notices := [] })
    (by rw [show State.own { v with notices := [] } = s.own from own]; exact coc ▸ path) (coc ▸ state) alone
  rw [show State.own { v with notices := [] } = s.own from own] at seeks
  dsimp only at seeks
  rw [coc, now] at seeks
  have whole := event_localEnd reset removes notices
    (freedNotices_set (m := m) modules fun _ => Module.switchedOff_grantable (r := s.mod m) (max s.now t) rfl) ends rfl rfl
  have supply : v.supply = s.supply := (congrArg State.supply form).trans rfl
  have band : v.band = s.band := (congrArg State.band form).trans rfl
  have synced := offerSync_form (s0 := startEvent t s) (s := { v with coc := x, lamp := k, csw := w, out := o, notices := [] })
    (offeringFlag_congr straps supply (congrArg Band.dupFault band))
  refine ⟨_, arm.trans (congrArg _ (whole.trans synced)), moduleGone_of_removed removed rfl rfl fun d => ?_, band, seeks, lit⟩
  exact routes _ d (removed.routes d)

/-- R105, R106: the power-on time is reached. -/
theorem switchOn_due {d : Time} (on : (s.mod m).powerOnTime = some d) (due : d ≤ s.now) :
    switchOn m s = s.withMod m
      { s.mod m with
        power := true, powerOnTime := none, poweredAt := s.now, poweringDeadline := some (s.now + poweringTime),
        state := .powering, powerCycles := if (s.mod m).state = .disabled then 0 else (s.mod m).powerCycles } s.out := by
  have due' : s.due (s.mod m).powerOnTime = true := by rw [on]; exact decide_eq_true due
  exact if_pos due'

end

/-- Settles O50: each cause is one power-cycle, which ends the carriage of the module. -/
theorem modulesArePowerCycled : Obligations.ModulesArePowerCycled := by
  unfold Obligations.ModulesArePowerCycled
  intro t d m s reset switched timesOut third cycles
  refine ⟨fun i cause => ?_, fun on due => ?_⟩
  · have cycles : PowerCycles i t m s := powerCycles_of (fun _ => id) cause
    refine ⟨fun link => powerCycles_alone cycles reset link, ?_⟩
    intro c link car gone
    refine ⟨fun told calm => powerCycles_removes cycles reset link car told calm,
      fun loc calls lane state path claims offers others => ?_⟩
    obtain ⟨u, left, gone, band, seeks, lit⟩ :=
      powerCycles_local cycles reset link car loc calls lane state path offers others
    exact ⟨u, left, gone, band, seeks.state, seeks.path, seeks.retry, seeks.deadline, lit, seeks.unanswered, seeks.answered⟩
  · have powers : switchOn m (startEvent t s) = _ := switchOn_due (s := startEvent t s) on due
    exact congrArg Host.Outcome.next (event_sync reset powers rfl
      (freedNotices_set (m := m) rfl fun _ => Module.grantable_of_state (by show ModuleState.powering ≠ _; decide)
        (by show ModuleState.powering ≠ _; decide)))

end Sys2Proof.Machine

/-! # The Service Responder (12) -/

namespace Sys2Proof.Machine

section
variable {f : Rx} {s : State} {t : Time}

/-- R178: an order addressed to the station, of the right length. -/
theorem serviceFrame_heard {n : Nat} (act : State → State) {u : State} (heard : s.hears f) (length : f.payload.length = n) :
    serviceFrame n f act u = act u := by
  obtain ⟨target, _, sender, _⟩ := heard
  unfold serviceFrame
  rw [if_neg (by rintro (h | h) <;> contradiction), if_neg (not_not.mpr length)]

/-- R170: a frame addressed to the station shows that the station has a number. -/
theorem State.hears_own (heard : s.hears f) : s.own ≠ 0 := by
  obtain ⟨target, own, _⟩ := heard
  exact fun zero => target (BitVec.eq_of_toNat_eq (own.trans zero))

theorem receive_statusQuery (heard : s.hears f) (length : f.payload.length = 2) :
    receive 32 f s = statusQuery f (hunt s) :=
  (receive_hears 32 heard rfl).trans (serviceFrame_heard _ heard length)

theorem receive_testOrder (heard : s.hears f) (length : f.payload.length = 7) :
    receive 34 f s = testOrder f (hunt s) :=
  (receive_hears 34 heard rfl).trans (serviceFrame_heard _ heard length)

/-! ## Status reports (12.1) -/

/-- R178: the answer to a query that clears nothing. -/
theorem statusQuery_answers (keeps : octAt f.payload 0 = 1 → octAt f.payload 1 ≠ 1) :
    statusQuery f s = handOver (statusReport f.sender (reportOf (octAt f.payload 0) s)) s :=
  if_neg fun h => keeps h.1 h.2

/-- R178: a part above 3 is answered with GENERAL. -/
theorem reportOf_general {n : Nat} (part : n = 0 ∨ 3 < n) : reportOf n s = generalOctets s := by
  unfold reportOf
  split
  · omega
  · omega
  · omega
  · rfl

end

/-- Settles O59: each part is answered by its octets. -/
theorem statusQueriesAreAnswered : Obligations.StatusQueriesAreAnswered := by
  unfold Obligations.StatusQueriesAreAnswered
  intro t f s reset heard length answered
  have answers {octets : List Octet} (keeps : octAt f.payload 0 = 1 → octAt f.payload 1 ≠ 1)
      (report : reportOf (octAt f.payload 0) (hunt (startEvent t s)) = octets) :
      receive 32 f (startEvent t s) = answered octets :=
    (receive_statusQuery (s := startEvent t s) heard length).trans ((statusQuery_answers keeps).trans (by rw [report]; rfl))
  refine ⟨fun part => ?_, fun part keep => ?_, fun part clear => ?_, fun part => ?_, fun part => ?_⟩
  · exact exec_handsOver rfl reset (answers (by omega) ((reportOf_general part).trans rfl)) (unnoticed_hunt t s)
  · exact exec_handsOver rfl reset (answers (fun _ => keep) (by rw [part]; rfl)) (unnoticed_hunt t s)
  · have cleared : statusQuery f (hunt (startEvent t s)) =
        { answered (counterOctets s.counters) with counters := Counters.zero } := by
      unfold statusQuery
      dsimp only
      rw [if_pos ⟨part, clear⟩, part]
      rfl
    exact exec_unnoticed (c := .statusQueryCounters t f) rfl reset
      ((receive_statusQuery (s := startEvent t s) heard length).trans cleared)
      ⟨handOver_notices _ _, handOver_straps _ _, congrArg _ (handOver_supply _ _), handOver_dupFault _ _, handOver_modules _ _,
        congrArg _ (handOver_claims _ _)⟩
  · exact exec_handsOver rfl reset (answers (by omega) (by rw [part]; rfl)) (unnoticed_hunt t s)
  · exact exec_handsOver rfl reset (answers (by omega) (by rw [part]; rfl)) (unnoticed_hunt t s)

/-! ## Orders of a lane test (12.3) -/

section
variable {f : Rx} {s : State} {l : Lane}

theorem testOrder_generate (role : octAt f.payload 0 = 0) : testOrder f s = orderGenerate f s := by
  unfold testOrder; rw [role]; rfl
theorem testOrder_check (role : octAt f.payload 0 = 1) : testOrder f s = orderCheck f s := by
  unfold testOrder; rw [role]; rfl
theorem testOrder_stop (role : octAt f.payload 0 = 2) : testOrder f s = orderStop f s := by
  unfold testOrder; rw [role]; rfl

/-- R180: the lane of an order that can be taken. -/
theorem testLane_of {p : List Octet} (active : s.recordActive = false) (own : s.own ≠ 0) (fields : testFieldsOk p = true)
    (lane : octAt p 1 = laneNumber l) (free : (s.lane l).freeForChoosing = true) : testLane p s = some l := by
  unfold testLane
  rw [active, fields, lane, laneOfNumber_laneNumber]
  dsimp only
  rw [if_pos free]
  refine if_neg ?_
  rintro (h | h | h)
  · exact Bool.noConfusion h
  · exact own h
  · exact Bool.noConfusion h

/-- R180: an order that cannot be taken. -/
theorem testLane_none {p : List Octet} (not : s.recordActive = true ∨ testFieldsOk p = false ∨ laneOfNumber (octAt p 1) = none ∨
    ∀ l, laneOfNumber (octAt p 1) = some l → (s.lane l).freeForChoosing = false) : testLane p s = none := by
  cases taken : testLane p s with
  | none => rfl
  | some l =>
    obtain ⟨_, active, fields, lane, free⟩ := testLane_some taken
    rcases not with h | h | h | h
    · exact absurd (active.symm.trans h) Bool.false_ne_true
    · exact absurd (h.symm.trans fields) Bool.false_ne_true
    · exact absurd (h.symm.trans lane) (by nofun)
    · exact absurd ((h l lane).symm.trans free) Bool.false_ne_true

/-- R180: a refusal names the lane. -/
theorem refuseTest_eq : refuseTest f s =
    handOver
      { kind := .testReport, target := f.sender, payload := [9, octetAt f.payload 1, 0, 0, 0, 0, 0, 0, 0, 0, 0, 0, 0] } s := by
  have octets (l : Octet) : recordOctets { ResultRecord.none with result := .refused, lane := l } =
      [9, l, 0, 0, 0, 0, 0, 0, 0, 0, 0, 0, 0] := by
    simp [recordOctets, ResultRecord.none, resultCode, be24, be16, oct]
  unfold refuseTest testReportFrame
  rw [octets]

/-- R181: a GENERATE order that is taken. -/
theorem orderGenerate_taken (lane : testLane f.payload s = some l) :
    ∃ x e, orderGenerate f s =
      { s with
        svc := { s.svc with test := some (orderedTest .generate l f s.now) }, lanes := s.lanes.set l x,
        engines := s.engines.set .e0 e } ∧
      x.occupancy = .own ∧ x.owner = some .laneTest ∧ Started .laneTest l (seedOf s.own 0) true false s.now e := by
  obtain ⟨x, taken, occupancy, owner⟩ := takeLane_eq l .laneTest (recordTest .generate l f s)
  obtain ⟨e, engine, started⟩ := startEngine_eq .laneTest l (seedOf s.own 0) true false
    (takeLane l .laneTest (recordTest .generate l f s))
  refine ⟨x, e, ?_, occupancy, owner, started⟩
  unfold orderGenerate
  rw [lane]
  dsimp only
  rw [engine, taken]
  rfl

/-- R182: a CHECK order that is taken. -/
theorem orderCheck_taken (lane : testLane f.payload s = some l) :
    ∃ e, orderCheck f s =
      { s with
        svc := { s.svc with test := some (orderedTest .check l f s.now) },
        lanes := s.lanes.set l { s.lane l with owner := some .laneTest }, engines := s.engines.set .e0 e } ∧
      Started .laneTest l 0 false true s.now e := by
  obtain ⟨e, engine, started⟩ := startEngine_eq .laneTest l 0 false true
    ((recordTest .check l f s).updLane l fun x => { x with owner := some .laneTest })
  refine ⟨e, ?_, started⟩
  unfold orderCheck
  rw [lane]
  dsimp only
  rw [engine]
  rfl

end

/-- Settles O57: an order that can be taken takes or holds its lane; the others are refused. -/
theorem testOrderStartsTheTest : Obligations.TestOrderStartsTheTest := by
  unfold Obligations.TestOrderStartsTheTest
  refine ⟨?_, ?_⟩
  · intro t f l s reset heard length active fields lane free started
    have chosen : testLane f.payload (hunt (startEvent t s)) = some l :=
      testLane_of active (State.hears_own (s := s) heard) fields lane free
    have read := receive_testOrder (s := startEvent t s) heard length
    refine ⟨fun role => ?_, fun role => ?_⟩
    · obtain ⟨x, e, taken, occupancy, owner, engine⟩ := orderGenerate_taken chosen
      have lane' : (s.lanes.set l x).get l = x := PerLane.get_set_self _ _ _
      have engine' : (s.engines.set .e0 e).get .e0 = e := PerEngine.get_set_self _ _ _
      refine ⟨_, exec_unnoticed rfl reset (read.trans ((testOrder_generate role).trans taken)) ⟨rfl, rfl, rfl, rfl, rfl, rfl⟩,
        ⟨?_, (congrArg _ lane').trans owner, engine.user, engine.lane⟩, (congrArg _ lane').trans occupancy,
        engine.generator, engine.checker, engine.genSeed, engine.transmitHalf⟩
      simp only [State.lane, State.engine, PerLane.get_set_self, PerEngine.get_set_self]
      rfl
    · obtain ⟨e, taken, engine⟩ := orderCheck_taken chosen
      have lane' : (s.lanes.set l { s.lane l with owner := some .laneTest }).get l = { s.lane l with owner := some .laneTest } :=
        PerLane.get_set_self _ _ _
      have unoccupied : (s.lane l).occupancy = .free := ((freeForChoosing_iff _).mp free).1
      refine ⟨_, exec_unnoticed rfl reset (read.trans ((testOrder_check role).trans taken)) ⟨rfl, rfl, rfl, rfl, rfl, rfl⟩,
        ⟨?_, congrArg _ lane', engine.user, engine.lane⟩, (congrArg _ lane').trans unoccupied, engine.generator,
        engine.checker, engine.receiveHalf⟩
      simp only [State.lane, State.engine, PerLane.get_set_self, PerEngine.get_set_self]
      rfl
  · intro t f s reset heard length refused
    have read := receive_testOrder (s := startEvent t s) heard length
    have refuses {c : Instr} (arm : exec c s = .next (event t (receive 34 f) s))
        (order : testOrder f (hunt (startEvent t s)) = refuseTest f (hunt (startEvent t s))) : exec c s = refused :=
      exec_handsOver arm reset (read.trans (order.trans refuseTest_eq)) (unnoticed_hunt t s)
    refine ⟨fun not => ?_, fun above => ?_, fun role untested => ?_⟩
    · have noLane : testLane f.payload (hunt (startEvent t s)) = none := testLane_none not
      refine ⟨fun role => refuses rfl ?_, fun role => refuses rfl ?_⟩
      · rw [testOrder_generate role, orderGenerate, noLane]
      · rw [testOrder_check role, orderCheck, noLane]
    · refine refuses rfl ?_
      unfold testOrder
      split
      · omega
      · omega
      · omega
      · rfl
    · have order : testOrder f (hunt (startEvent t s)) =
          handOver (testReportFrame f.sender s.svc.record) (hunt (startEvent t s)) := by
        rw [testOrder_stop role]
        exact if_neg (by rw [show (hunt (startEvent t s)).svc = s.svc from rfl, untested]; decide)
      exact exec_handsOver rfl reset (read.trans order) (unnoticed_hunt t s)

end Sys2Proof.Machine

/-! # The end of a lane test (12, 12.3) -/

namespace Sys2Proof.Machine

/-- R183: what the end of a lane test leaves of its lane and engine. -/
structure TestClosed (x : LaneTest) (s : State) (y : LaneEntry) (e : Engine) (ns : List Notice) : Prop where
  owner : y.owner = none
  occupancy : y.occupancy ≠ .own
  user : e.user = none
  quiet : ∀ n ∈ ns, n.quiet = true
  few : ns.length ≤ 1

section
variable {x : LaneTest} {s : State} (r : TestResult)

/-- R183: the lane is given up, the record written, the engine stopped. -/
theorem closeTest_eq (owner : (s.lane x.lane).owner = some .laneTest) :
    ∃ y a b e ns, closeTest x r s =
      { s with
        svc := { s.svc with record := testRecord x r (s.engine .e0) s.now, test := none }, lanes := s.lanes.set x.lane y,
        csw := { s.csw with gapA := a, gapB := b }, engines := s.engines.set .e0 e, notices := s.notices ++ ns } ∧
      TestClosed x s y e ns := by
  obtain ⟨y, a, b, e, ns, released, by_⟩ := releaseLane_eq x.lane .laneTest s
  refine ⟨y, a, b, e.stopped, ns, ?_, ?_⟩
  · unfold closeTest
    dsimp only
    rw [released]
    rfl
  · by_cases own : (s.lane x.lane).occupancy = .own
    · obtain ⟨_, g, rfl⟩ := by_.own own owner
      exact ⟨rfl, by show Occupancy.busy ≠ _; decide, rfl, by_.quiet, by_.few⟩
    · obtain ⟨g, rfl⟩ := by_.held own owner
      exact ⟨rfl, own, rfl, by_.quiet, by_.few⟩

/-- R183: a test in progress ends, and its record is reported. -/
theorem endTest_eq (test : s.svc.test = some x) (owner : (s.lane x.lane).owner = some .laneTest) :
    ∃ y a b e ns, endTest r s =
      handOver (testReportFrame x.orderer (testRecord x r (s.engine .e0) s.now))
        { s with
          svc := { s.svc with record := testRecord x r (s.engine .e0) s.now, test := none }, lanes := s.lanes.set x.lane y,
          csw := { s.csw with gapA := a, gapB := b }, engines := s.engines.set .e0 e, notices := s.notices ++ ns } ∧
      TestClosed x s y e ns := by
  obtain ⟨y, a, b, e, ns, closed, left⟩ := closeTest_eq r owner
  refine ⟨y, a, b, e, ns, ?_, left⟩
  unfold endTest
  rw [test]
  dsimp only
  rw [closed]

end

/-- R183: what is left of a lane test, its report handed over after the frames of `b`. -/
def TestEnded (t : Time) (x : LaneTest) (s b : State) (r : ResultRecord) (u : State) : Prop :=
  u = { startEvent t s with
        svc := { s.svc with record := r, test := none }, lanes := s.lanes.set x.lane (u.lane x.lane),
        engines := s.engines.set .e0 (u.engine .e0), csw := u.csw, band := u.band, counters := u.counters } ∧
    (u.lane x.lane).owner = none ∧ (u.lane x.lane).occupancy ≠ .own ∧ (u.engine .e0).user = none ∧
    u.band = (handOver (testReportFrame x.orderer r) b).band

/-- R183: a test's figures and its engine as an event leaves them at the end of the test. -/
def State.testedBy (s : State) (b : Band) (x : LaneTest) (e : Engine) : State :=
  { s with band := b, engines := s.engines.set .e0 e, svc := { s.svc with test := some x } }

theorem State.testedBy_self {s : State} {x : LaneTest} (test : s.svc.test = some x) : s.testedBy s.band x (s.engine .e0) = s := by
  unfold State.testedBy State.engine
  rw [PerEngine.set_get_self, ← test]

/-- R183: an event of a calm station that ends its lane test. -/
theorem exec_endsTest {c : Instr} {t : Time} {op : State → State} {s b : State} {x z : LaneTest} {e : Engine} {r : TestResult}
    (arm : exec c s = .next (event t op s)) (reset : s.inReset = false) (calm : s.calm)
    (run : op (startEvent t s) = endTest r ((startEvent t s).testedBy b.band z e))
    (owner : (s.lane x.lane).owner = some .laneTest) (lane : z.lane = x.lane) (orderer : z.orderer = x.orderer)
    (straps : b.straps = s.straps) (dup : b.band.dupFault = s.band.dupFault) :
    ∃ u, exec c s = .next u ∧ TestEnded t x s b (testRecord z r e (max s.now t)) u := by
  obtain ⟨y, ga, gb, e', ns, ended, left⟩ := endTest_eq r (x := z) (s := (startEvent t s).testedBy b.band z e) rfl
    (by rw [lane]; exact owner)
  have engine : ((startEvent t s).testedBy b.band z e).engine .e0 = e := rfl
  rw [engine, lane, orderer] at ended
  obtain ⟨k, into⟩ := handOver_into (s := b)
    (u := { startEvent t s with
      band := b.band, svc := { s.svc with record := testRecord z r e (max s.now t), test := none },
      lanes := s.lanes.set x.lane y, csw := { s.csw with gapA := ga, gapB := gb }, engines := s.engines.set .e0 e',
      notices := ns })
    (testReportFrame x.orderer (testRecord z r e (max s.now t))) straps.symm rfl
  have whole := run.trans (ended.trans (Eq.trans rfl into))
  have set : (s.lanes.set x.lane y).get x.lane = y := PerLane.get_set_self _ _ _
  refine ⟨_, exec_calm arm reset whole ⟨calm.1, calm.2⟩ left.quiet (Nat.le_trans left.few (by decide))
    ⟨rfl, rfl, rfl, (handOver_dupFault _ _).trans dup, rfl, rfl⟩, ?_, (congrArg _ set).trans left.owner,
    ne_of_eq_of_ne (congrArg _ set) left.occupancy, left.user, rfl⟩
  simp only [State.lane, State.engine, PerLane.get_set_self, PerEngine.get_set_self]
  rfl

/-! ## Bit clocks and words of a lane test (R136, R182) -/

/-- R182: a test as its checker's compare has reached a magnitude. -/
def LaneTest.peaks (x : LaneTest) (n : Nat) : LaneTest := { x with largest := max x.largest n }

section
variable {s : State} {x : LaneTest} {i : WordIn}

/-- R136, R182: bit clocks in CHECK move the compare and the largest magnitude. -/
theorem countClocks_test (edges : List ClockEdge) (user : (s.engine .e0).user = some .laneTest)
    (check : (s.engine .e0).checker = .check) (test : s.svc.test = some x) :
    countClocks .e0 edges s =
      s.testedBy s.band (x.peaks (comparePeak (s.engine .e0).compare edges))
        { s.engine .e0 with compare := clockCompare (s.engine .e0).compare edges } := by
  have noted : noteLargest .e0 (comparePeak (s.engine .e0).compare edges) s =
      { s with svc := { s.svc with test := some (x.peaks (comparePeak (s.engine .e0).compare edges)) } } := by
    refine (if_pos ⟨rfl, user⟩).trans ?_
    rw [test]
    rfl
  unfold countClocks
  rw [if_pos check, noted]
  exact congrArg (fun e => s.testedBy s.band (x.peaks (comparePeak (s.engine .e0).compare edges)) e)
    (Engine.clocked_check edges check)

/-- R182: the engine with its compare returned to 0 after every 1,024 compared words. -/
def Engine.wrapped (y : Engine) (before : Nat) : Engine :=
  if before < y.compared ∧ y.compared % 1024 = 0 then { y with compare := 0 } else y

/-- R134, R182: a word at the checker of a lane test. -/
theorem wordArrives_test {y : Engine} {o : Option WordEnd} (first : i.engine = .e0)
    (user : (s.engine .e0).user = some .laneTest) (check : (s.engine .e0).checker = .check) (test : s.svc.test = some x)
    (word : ((s.engine .e0).clocked i.edges).word i (testGoal x.lengthExp) s.now = (y, o))
    (same : y.user = (s.engine .e0).user) :
    wordArrives i s =
      wordOutcome .e0 o
        (s.testedBy s.band (x.peaks (comparePeak (s.engine .e0).compare i.edges)) (y.wrapped (s.engine .e0).compared)) := by
  have engine (e : Engine) (z : LaneTest) : (s.testedBy s.band z e).engine .e0 = e := rfl
  have goal : wordGoal .e0 (s.testedBy s.band (x.peaks (comparePeak (s.engine .e0).compare i.edges))
      { s.engine .e0 with compare := clockCompare (s.engine .e0).compare i.edges }) = testGoal x.lengthExp := by
    unfold wordGoal
    rw [engine, show (s.testedBy s.band (x.peaks (comparePeak (s.engine .e0).compare i.edges)) _).svc.test = some _ from rfl]
    dsimp only
    rw [user]
    rfl
  have wraps (before : Nat) (z : LaneTest) :
      wrapCompare .e0 before (s.testedBy s.band z y) = s.testedBy s.band z (y.wrapped before) := by
    unfold wrapCompare Engine.wrapped
    dsimp only
    by_cases wrap : before < y.compared ∧ y.compared % 1024 = 0
    · exact (if_pos ⟨rfl, same.trans user, wrap⟩).trans (congrArg (s.testedBy s.band z) (if_pos wrap).symm)
    · exact (if_neg fun h => wrap h.2.2).trans (congrArg (s.testedBy s.band z) (if_neg wrap).symm)
  rw [Engine.clocked_check i.edges check] at word
  unfold wordArrives
  rw [first, countClocks_test i.edges user check test]
  dsimp only
  rw [goal, engine, show (s.testedBy s.band _ _).now = s.now from rfl, word]
  dsimp only
  have read : ((s.testedBy s.band (x.peaks (comparePeak (s.engine .e0).compare i.edges))
      { s.engine .e0 with compare := clockCompare (s.engine .e0).compare i.edges }).updEngine .e0 fun _ => y) =
      s.testedBy s.band (x.peaks (comparePeak (s.engine .e0).compare i.edges)) y := by
    simp only [State.testedBy, State.updEngine, PerEngine.set_set]
  rw [read, wraps]
  rcases o with _ | ⟨_ | _ | _⟩ <;> rfl

end

section
variable {s : State} {x : LaneTest} {y : Engine}

/-- R183: a test's record takes three figures of its checker. -/
theorem testRecord_congr {e : Engine} (r : TestResult) (now : Time) (check : x.role = .check) (compared : y.compared = e.compared)
    (errors : y.errors = e.errors) (compare : y.compare = e.compare) : testRecord x r y now = testRecord x r e now := by
  unfold testRecord
  rw [check, compared, errors, compare]

/-- R131: an engine that finishes keeps its figures. -/
theorem Engine.finish_figures (y : Engine) :
    y.finish.compared = y.compared ∧ y.finish.errors = y.errors ∧ y.finish.compare = y.compare := by
  unfold Engine.finish; split <;> exact ⟨rfl, rfl, rfl⟩

/-- R182: a checker that ends without a completed check ends the test. -/
theorem reportOutcome_test {b : Band} (o : ProbeOutcome) (user : y.user = some .laneTest) :
    reportOutcome .e0 o (s.testedBy b x y) = endTest (testResultOf o) (s.testedBy b x y.finish) := by
  unfold reportOutcome
  rw [show ((s.testedBy b x y).engine .e0).user = some .laneTest from user]
  rfl

/-- R182: the last compared word ends the test. -/
theorem completeOutcome_test {b : Band} (user : y.user = some .laneTest) :
    completeOutcome .e0 (s.testedBy b x y) = endTest (testOutcome x y) (s.testedBy b x y) := by
  unfold completeOutcome
  rw [show ((s.testedBy b x y).engine .e0).user = some .laneTest from user,
    show (s.testedBy b x y).svc.test = some x from rfl]
  rfl

/-- R181, R183: the last word of a GENERATE test. -/
theorem generationEnds_due (test : s.svc.test = some x) (role : x.role = .generate)
    (due : x.start + ms (256 * 2 ^ x.lengthExp) ≤ s.now) : generationEnds s = endTest .generated s := by
  unfold generationEnds
  rw [test]
  exact if_pos ⟨role, due⟩

/-- R182: the limit of a CHECK test. -/
theorem testTimesOut_due (test : s.svc.test = some x) (role : x.role = .check)
    (due : x.start + ms (256 * 2 ^ x.lengthExp + 2000) ≤ s.now) : testTimesOut s = endTest .timeout s := by
  have limit : x.start + testTime x.lengthExp + ms 2000 ≤ s.now := by
    rw [Nat.add_assoc, show testTime x.lengthExp + ms 2000 = ms (256 * 2 ^ x.lengthExp + 2000) from (Nat.mul_add _ _ _).symm]
    exact due
  unfold testTimesOut
  rw [test]
  exact if_pos ⟨role, limit⟩

/-- R134: the words a test compares end within a thousand-word span (R182). -/
theorem testGoal_mod (k : Nat) : testGoal k % 1024 ≠ 0 := by
  have some_ : 1 ≤ 2 ^ k := Nat.one_le_two_pow
  unfold testGoal testWords
  omega

end

end Sys2Proof.Machine

/-! # A lane test and the origin record: presses and claims (09, 9.1; 04, 4.3) -/

namespace Sys2Proof.Machine

/-! ## Notices where the record finds no candidate -/

/-- R36: without a candidate, the record that is woken waits again. -/
theorem wakeOrigin_noCandidate {s : State} (alone : s.noCandidate) :
    ∃ c k, wakeOrigin s = { s with coc := c, lamp := k } ∧ c.state = s.coc.state ∧ c.tag = s.coc.tag := by
  unfold wakeOrigin
  split
  next wakes =>
    have seeking : s.coc.state = .seeking := by
      have waits := wakes.1
      unfold State.waitsForCandidate at waits
      simpa using (Bool.and_eq_true_iff.mp waits).1
    exact ⟨_, _, enterSeeking_noCandidate (s := s.updCoc fun c => { c with wokenAt := some s.now }) alone, seeking.symm, rfl⟩
  next => exact ⟨s.coc, s.lamp, rfl, rfl, rfl⟩

/-- R36, R73: a quiet notice, with no claim waiting and no candidate. -/
theorem handleNotice_noCandidate {n : Notice} {s : State} (quiet : n.quiet = true) (claims : s.claims = []) (alone : s.noCandidate) :
    ∃ c k, handleNotice n s = { s with coc := c, lamp := k } ∧ c.state = s.coc.state ∧ c.tag = s.coc.tag := by
  obtain ⟨c, k, woken, state, tag⟩ := wakeOrigin_noCandidate alone
  have noted : noting wakeOrigin s = { s with coc := c, lamp := k } := by
    rw [noting, woken, noteFreed_eq, freedNotices_of_modules (by rfl), List.append_nil]
  refine ⟨c, k, ?_, state, tag⟩
  cases n with
  | grantable m => exact (congrArg (noting wakeOrigin) (noting_id (serve_nil claims))).trans noted
  | laneFree l => exact (congrArg (noting wakeOrigin) (noting_id (serveOnLane_nil claims))).trans noted
  | newEntry => exact noted
  | localEnd r => cases quiet
  | localRefused => cases quiet

/-- R36: quiet notices that find no claim waiting and no candidate move the origin record's wait only. -/
theorem drain_noCandidate {s : State} (n : Nat) (claims : s.claims = []) (alone : s.noCandidate)
    (quiet : ∀ x ∈ s.notices, x.quiet = true) (few : s.notices.length ≤ n) :
    ∃ c k, drain n s = { s with coc := c, lamp := k, notices := [] } ∧ c.state = s.coc.state ∧ c.tag = s.coc.tag := by
  induction n generalizing s with
  | zero =>
    have none : s.notices = [] := List.length_eq_zero_iff.mp (Nat.le_zero.mp few)
    exact ⟨s.coc, s.lamp, (drain_nil 0 none).trans (by rw [← none]), rfl, rfl⟩
  | succ n ih =>
    cases notices : s.notices with
    | nil => exact ⟨s.coc, s.lamp, (drain_nil _ notices).trans (by rw [← notices]), rfl, rfl⟩
    | cons x rest =>
      rw [notices] at quiet few
      obtain ⟨c, k, handled, state, tag⟩ := handleNotice_noCandidate (s := { s with notices := rest })
        (quiet x List.mem_cons_self) claims alone
      obtain ⟨c', k', drained, state', tag'⟩ := ih (s := { s with coc := c, lamp := k, notices := rest }) claims alone
        (fun y mem => quiet y (List.mem_cons_of_mem _ mem)) (Nat.le_of_succ_le_succ few)
      refine ⟨c', k', ?_, state'.trans state, tag'.trans tag⟩
      unfold drain
      rw [notices]
      exact (congrArg (drain n) handled).trans drained

/-! ## A press during a lane test (R154) -/

/-- R154, R183: what is left of a lane test that a press has ended. -/
def PressEnded (t : Time) (x : LaneTest) (s u : State) : Prop :=
  u = { startEvent t s with
        button := { pressed := true, disagree := 0, sampledAt := max s.now t },
        svc := { s.svc with record := testRecord x .aborted (s.engine .e0) (max s.now t), test := none },
        coc := u.coc, lamp := u.lamp, lanes := s.lanes.set x.lane (u.lane x.lane),
        engines := s.engines.set .e0 (u.engine .e0), csw := u.csw, band := u.band, counters := u.counters,
        out := u.out } ∧
    (u.lane x.lane).owner = none ∧ (u.lane x.lane).occupancy ≠ .own ∧ (u.engine .e0).user = none ∧
    u.band = (handOver (testReportFrame x.orderer u.svc.record) s).band

section
variable {t : Time} {x : LaneTest} {s : State}

/-- R154: the press as the origin record leaves it, and then the end of the test. -/
theorem press_endsTest {c : Origin} {k : Lamp} {w : Switch} {o : List Output} {n : Counters}
    (test : s.svc.test = some x) (owner : (s.lane x.lane).owner = some .laneTest)
    (due : s.button.sampledAt + ms 10 ≤ max s.now t) (released : s.button.pressed = false) (third : s.button.disagree = 2)
    (taken : originPress { startEvent t s with button := { pressed := true, disagree := 0, sampledAt := max s.now t } } =
      { startEvent t s with
        button := { pressed := true, disagree := 0, sampledAt := max s.now t }, coc := c, lamp := k, csw := w, out := o,
        counters := n }) :
    ∃ v ns, sampleButton true (startEvent t s) = { v with notices := ns } ∧ PressEnded t x s v ∧ v.coc = c ∧ v.claims = s.claims ∧
      v.counters.callsOriginated = n.callsOriginated ∧ ns.length ≤ 1 ∧ (∀ y ∈ ns, y.quiet = true) := by
  obtain ⟨y, ga, gb, e, ns, ended, left⟩ := endTest_eq .aborted (x := x)
    (s := { startEvent t s with
      button := { pressed := true, disagree := 0, sampledAt := max s.now t }, coc := c, lamp := k, csw := w, out := o,
      counters := n }) test owner
  obtain ⟨d, into⟩ := handOver_into (s := s)
    (u := { startEvent t s with
      button := { pressed := true, disagree := 0, sampledAt := max s.now t }, coc := c, lamp := k,
      csw := { w with gapA := ga, gapB := gb }, out := o, counters := n,
      svc := { s.svc with record := testRecord x .aborted (s.engine .e0) (max s.now t), test := none },
      lanes := s.lanes.set x.lane y, engines := s.engines.set .e0 e, notices := ns })
    (testReportFrame x.orderer (testRecord x .aborted (s.engine .e0) (max s.now t))) rfl rfl
  have run := (sampleButton_press (s := startEvent t s) due released third).trans
    ((congrArg (endTest .aborted) taken).trans (ended.trans into))
  have set : (s.lanes.set x.lane y).get x.lane = y := PerLane.get_set_self _ _ _
  refine ⟨{ startEvent t s with
      button := { pressed := true, disagree := 0, sampledAt := max s.now t }, coc := c, lamp := k,
      csw := { w with gapA := ga, gapB := gb }, out := o, counters := { n with framesDropped := d },
      svc := { s.svc with record := testRecord x .aborted (s.engine .e0) (max s.now t), test := none },
      lanes := s.lanes.set x.lane y, engines := s.engines.set .e0 e,
      band := (handOver (testReportFrame x.orderer (testRecord x .aborted (s.engine .e0) (max s.now t))) s).band }, ns, run,
    ⟨?_, (congrArg _ set).trans left.owner, ne_of_eq_of_ne (congrArg _ set) left.occupancy, left.user, rfl⟩, rfl, rfl, rfl,
    left.few, left.quiet⟩
  simp only [State.lane, State.engine, PerLane.get_set_self, PerEngine.get_set_self]

/-- The record and the lamp may move after the press; the test has ended. -/
theorem PressEnded.moved {v : State} {c : Origin} {k : Lamp} (ended : PressEnded t x s v) :
    PressEnded t x s { v with coc := c, lamp := k, notices := [] } := by
  obtain ⟨form, owner, occupancy, user, band⟩ := ended
  exact ⟨(congrArg (fun u : State => { u with coc := c, lamp := k, notices := [] }) form).trans rfl, owner, occupancy, user, band⟩

end

/-- R154: the end of a test by a press brings about nothing further. -/
theorem PressEnded.unnoticed {t : Time} {x : LaneTest} {s v : State} (ended : PressEnded t x s v) :
    Unnoticed (startEvent t s) v := by
  obtain ⟨form, _, _, _, band⟩ := ended
  exact ⟨(congrArg State.notices form).trans rfl, (congrArg State.straps form).trans rfl,
    (congrArg (fun u : State => u.supply.state) form).trans rfl, (congrArg Band.dupFault band).trans (handOver_dupFault _ _),
    (congrArg State.modules form).trans rfl, (congrArg (fun u : State => u.claims.length) form).trans rfl⟩

/-! ## Words of a lane test (R182) -/

section
variable {t : Time} {x : LaneTest} {s : State} {i : WordIn}

/-- R135, R183: the seventh identical word ends the test. -/
theorem wordArrives_stuckTest (first : i.engine = .e0) (user : (s.engine .e0).user = some .laneTest)
    (check : (s.engine .e0).checker = .check) (test : s.svc.test = some x) (last : (s.engine .e0).lastWord = some i.word)
    (seventh : (s.engine .e0).run = 6) :
    ∃ y, wordArrives i s =
        endTest .stuck (s.testedBy s.band (x.peaks (comparePeak (s.engine .e0).compare i.edges)) y) ∧
      y.compared = (s.engine .e0).compared ∧ y.errors = (s.engine .e0).errors ∧
      y.compare = clockCompare (s.engine .e0).compare i.edges := by
  have run : 7 ≤ (s.engine .e0).runAfter i.word := by unfold Engine.runAfter; rw [if_pos last]; omega
  obtain ⟨y, stuck, form⟩ := Engine.checkWord_stuck (g := testGoal x.lengthExp) (err := (s.engine .e0).wordErrors i)
    (x := { s.engine .e0 with
      compare := clockCompare (s.engine .e0).compare i.edges
      predictor := (nextWord (freeRun i.gapBits (s.engine .e0).predictor)).2 }) (w := i.word) run
  have same : y.user = (s.engine .e0).user := (congrArg Engine.user form).trans rfl
  have compared : y.compared = (s.engine .e0).compared := (congrArg Engine.compared form).trans rfl
  have errors : y.errors = (s.engine .e0).errors := (congrArg Engine.errors form).trans rfl
  have compare : y.compare = clockCompare (s.engine .e0).compare i.edges := (congrArg Engine.compare form).trans rfl
  have unwrapped : y.wrapped (s.engine .e0).compared = y := if_neg fun h => by omega
  have read := wordArrives_test first user check test ((Engine.word_clocked_check check).trans stuck) same
  rw [unwrapped] at read
  obtain ⟨words, bits, slips⟩ := y.finish_figures
  exact ⟨_, read.trans (reportOutcome_test .stuck (same.trans user)), words.trans compared, bits.trans errors, slips.trans compare⟩

/-- R182, R183: the last compared word ends the test. -/
theorem wordArrives_completeTest (first : i.engine = .e0) (user : (s.engine .e0).user = some .laneTest)
    (check : (s.engine .e0).checker = .check) (test : s.svc.test = some x)
    (last : (s.engine .e0).compared + 1 = testGoal x.lengthExp)
    (free : (s.engine .e0).lastWord ≠ some i.word ∨ (s.engine .e0).run < 6) :
    wordArrives i s =
      endTest (testOutcome (x.peaks (comparePeak (s.engine .e0).compare i.edges)) ((s.engine .e0).completed i))
        (s.testedBy s.band (x.peaks (comparePeak (s.engine .e0).compare i.edges)) ((s.engine .e0).completed i)) := by
  have word : ((s.engine .e0).clocked i.edges).word i (testGoal x.lengthExp) s.now =
      ((s.engine .e0).completed i, some .complete) := by
    rw [Engine.word_clocked_check check]
    exact Engine.checkWord_complete (Engine.runAfter_free free) last
  have unwrapped : ((s.engine .e0).completed i).wrapped (s.engine .e0).compared = (s.engine .e0).completed i :=
    if_neg fun h => testGoal_mod x.lengthExp (last ▸ h.2)
  have read := wordArrives_test first user check test word rfl
  rw [unwrapped] at read
  exact read.trans (completeOutcome_test user)

end

end Sys2Proof.Machine

/-! # A claim that ends a lane test (04, 4.3, 4.4; 12, 12.3) -/

namespace Sys2Proof.Machine

/-! ## What a claim keeps once the lane test has ended -/

/-- R183: the lane test has ended with the service record `v`, and lanes of a lane test are in `P` only. The claims are of peers, the
origin record waits for no candidate, and the notices are those of freed modules and lanes and of new entries. -/
structure TestGone (P : Lane → Prop) (v : Service) (s : State) : Prop where
  svc : s.svc = v
  lanes : ∀ l, (s.lane l).owner = some .laneTest → P l
  engine : (s.engine .e0).user ≠ some .laneTest
  remote : ∀ e ∈ s.claims, e.loc = false
  waits : s.waitsForCandidate = false
  quiet : ∀ n ∈ s.notices, n.quiet = true

namespace TestGone

variable {P : Lane → Prop} {v : Service} {s u : State} {m : Mod}

/-- A change of what the end of the test does not read. -/
theorem same (h : TestGone P v s) (svc : u.svc = s.svc) (lanes : u.lanes = s.lanes) (engines : u.engines = s.engines)
    (claims : u.claims = s.claims) (coc : u.coc.state = s.coc.state ∧ u.coc.retryTime = s.coc.retryTime)
    (notices : u.notices = s.notices) : TestGone P v u where
  svc := svc.trans h.svc
  lanes := by unfold State.lane; rw [lanes]; exact h.lanes
  engine := by unfold State.engine; rw [engines]; exact h.engine
  remote := by rw [claims]; exact h.remote
  waits := by unfold State.waitsForCandidate; rw [coc.1, coc.2]; exact h.waits
  quiet := by rw [notices]; exact h.quiet

theorem handOver (h : TestGone P v s) (f : Frame) : TestGone P v (handOver f s) := by
  rw [handOver_form]
  exact h.same rfl rfl rfl rfl ⟨rfl, rfl⟩ rfl

theorem setCar (h : TestGone P v s) (c : Option Carriage) : TestGone P v (s.setCar m c) := h.same rfl rfl rfl rfl ⟨rfl, rfl⟩ rfl

theorem updCar (h : TestGone P v s) (f : Carriage → Carriage) : TestGone P v (s.updCar m f) := h.same rfl rfl rfl rfl ⟨rfl, rfl⟩ rfl

theorem withMod (h : TestGone P v s) (r : Module) (out : List Output) : TestGone P v (s.withMod m r out) :=
  h.same rfl rfl rfl rfl ⟨rfl, rfl⟩ rfl

theorem countGrant (h : TestGone P v s) : TestGone P v (countGrant s) := h.same rfl rfl rfl rfl ⟨rfl, rfl⟩ rfl

/-- Some claims leave; the others stay. -/
theorem fewerClaims (h : TestGone P v s) {q : List ClaimEntry} (sub : ∀ e ∈ q, e.loc = false) :
    TestGone P v (tellPosition { s with claims := q }) := by
  have kept : TestGone P v { s with claims := q } := ⟨h.svc, h.lanes, h.engine, sub, h.waits, h.quiet⟩
  unfold tellPosition
  split
  · split
    · exact kept.same rfl rfl rfl rfl ⟨rfl, rfl⟩ rfl
    · exact kept
  · exact kept

theorem keepClaims (h : TestGone P v s) (keep : ClaimEntry → Bool) : TestGone P v (keepClaims keep s) :=
  h.fewerClaims fun e mem => h.remote e (List.mem_of_mem_filter mem)

theorem joinClaims (h : TestGone P v s) {e : ClaimEntry} (peer : e.loc = false) : TestGone P v (joinClaims e s) :=
  ⟨h.svc, h.lanes, h.engine, fun x mem => (List.mem_append.mp mem).elim (h.remote x)
    fun new => (congrArg ClaimEntry.loc (List.mem_singleton.mp new)).trans peer, h.waits, h.quiet⟩

theorem updClaim (h : TestGone P v s) (o : Station) (tag : Tag) {f : ClaimEntry → ClaimEntry} (loc : ∀ e, (f e).loc = e.loc) :
    TestGone P v (updClaim o tag f s) := by
  refine ⟨h.svc, h.lanes, h.engine, fun e mem => ?_, h.waits, h.quiet⟩
  obtain ⟨d, old, rfl⟩ := List.mem_map.mp mem
  split
  · exact (loc d).trans (h.remote d old)
  · exact h.remote d old

theorem clearRoutes (h : TestGone P v s) (o : Owner) : TestGone P v (clearRoutes o s) := h.same rfl rfl rfl rfl ⟨rfl, rfl⟩ rfl

theorem stopPrompt (h : TestGone P v s) (p : PlayerId) (q : Option Prompt) : TestGone P v (stopPrompt p q s) := by
  obtain ⟨w, x, stopped, _⟩ := stopPrompt_spec p q s
  rw [stopped]
  exact h.same rfl rfl rfl rfl ⟨rfl, rfl⟩ rfl

theorem requestHoldLine (h : TestGone P v s) : TestGone P v (requestHoldLine m s) := by
  obtain ⟨w, o, asked, _⟩ := requestPrompt_spec (modPlayer m) (.carriage m) .holdLine 0 holdLineGap s
  unfold Machine.requestHoldLine
  rw [asked]
  exact h.same rfl rfl rfl rfl ⟨rfl, rfl⟩ rfl

/-- A lane of another owner, or of none. -/
theorem updLane (h : TestGone P v s) {l : Lane} {x : LaneEntry} (owner : x.owner = some .laneTest → (s.lane l).owner = some .laneTest) :
    TestGone P v { s with lanes := s.lanes.set l x } where
  svc := h.svc
  lanes := fun n mine => by
    unfold State.lane at mine
    by_cases same : n = l
    · subst same
      rw [PerLane.get_set_self] at mine
      exact h.lanes n (owner mine)
    · rw [PerLane.get_set_ne _ _ _ _ same] at mine
      exact h.lanes n mine
  engine := h.engine
  remote := h.remote
  waits := h.waits
  quiet := h.quiet

/-- The engine of a carriage. -/
theorem setEngine (h : TestGone P v s) (e : Engine) :
    TestGone P v { s with engines := s.engines.set (engineOf (.carriage m)) e } where
  svc := h.svc
  lanes := h.lanes
  engine := by
    have other : (s.engines.set (engineOf (.carriage m)) e).get .e0 = s.engines.get .e0 := by cases m <;> rfl
    unfold State.engine
    rw [other]
    exact h.engine
  remote := h.remote
  waits := h.waits
  quiet := h.quiet

theorem notify (h : TestGone P v s) {ns : List Notice} (quiet : ∀ n ∈ ns, n.quiet = true) :
    TestGone P v { s with notices := s.notices ++ ns } :=
  ⟨h.svc, h.lanes, h.engine, h.remote, h.waits, fun n mem => (List.mem_append.mp mem).elim (h.quiet n) (quiet n)⟩

theorem noteFreed (h : TestGone P v u) : TestGone P v (noteFreed s u) := by
  rw [noteFreed_eq]
  exact h.notify (freedNotices_quiet s u).2

/-! ### The modules and the carriages -/

theorem commitModule (h : TestGone P v s) : TestGone P v (commitModule m s) := by
  unfold Machine.commitModule
  dsimp only
  split
  · exact h.same rfl rfl rfl rfl ⟨rfl, rfl⟩ rfl
  · exact h.same rfl rfl rfl rfl ⟨rfl, rfl⟩ rfl

theorem clearLink (h : TestGone P v s) : TestGone P v (clearLink m (endModuleCall m s)) := by
  have settled {u : State} (h : TestGone P v u) : TestGone P v (Machine.clearLink m u) := by
    obtain ⟨x, o, run, _⟩ := settle_settled (m := m) (s := u) (r := (u.mod m).freed) (out := u.out)
    rw [clearLink_eq, run]
    exact h.withMod _ _
  unfold endModuleCall
  split
  · rw [orderHangup_eq]
    exact settled (h.withMod _ _)
  · exact settled h

theorem releaseLane (h : TestGone P v s) (l : Lane) : TestGone P v (releaseLane l (.carriage m) s) := by
  by_cases mine : (s.lane l).owner = some (.carriage m)
  · obtain ⟨x, a, b, e, ns, run, left⟩ := releaseLane_eq l (.carriage m) s
    have free : x.owner = none := by
      by_cases own : (s.lane l).occupancy = .own
      · obtain ⟨_, g, rfl⟩ := left.own own mine
        rfl
      · obtain ⟨g, rfl⟩ := left.held own mine
        rfl
    rw [run]
    exact (((h.updLane (l := l) (x := x) fun test => absurd (free.symm.trans test) (by nofun)).setEngine e).notify left.quiet).same
      rfl rfl rfl rfl ⟨rfl, rfl⟩ rfl
  · exact Eq.mpr (congrArg (TestGone P v) (if_neg mine)) h

theorem releaseCarriageLane (h : TestGone P v s) : TestGone P v (releaseCarriageLane m s) := by
  unfold Machine.releaseCarriageLane
  split
  · exact h
  · split
    · exact (h.releaseLane _).updCar _
    · exact h

theorem removeCarriage (h : TestGone P v s) : TestGone P v (removeCarriage m s) := by
  have released : TestGone P v (Machine.releaseCarriageLane m (stopEngine (engineOf (.carriage m)) s)) :=
    TestGone.releaseCarriageLane (h.setEngine _)
  exact ((released.clearRoutes _).stopPrompt _ _).clearLink.setCar none

theorem carriageReleased (h : TestGone P v s) : TestGone P v (carriageReleased m s) := by
  unfold Machine.carriageReleased
  split
  · exact h
  · split
    · exact h
    · exact h.removeCarriage

theorem grantLane (h : TestGone P v s) (l : Lane) : TestGone P v (grantLane m l s) := by
  unfold Machine.grantLane
  split
  · exact h
  · next c car =>
    obtain ⟨x, taken, _, owner⟩ := takeLane_eq l (.carriage m) s
    dsimp only
    refine TestGone.handOver (TestGone.setEngine (TestGone.updCar ?_ _) _) _
    rw [taken]
    exact h.updLane fun mine => absurd (owner.symm.trans mine) (by nofun)

theorem enterAwaitRejoin (h : TestGone P v s) : TestGone P v (enterAwaitRejoin m s) := by
  unfold Machine.enterAwaitRejoin
  split
  · exact h
  · split
    · exact h
    · exact TestGone.requestHoldLine (TestGone.updCar (h.clearRoutes _).releaseCarriageLane _)

theorem grantRejoin (h : TestGone P v s) (mask : LaneMask) : TestGone P v (grantRejoin m mask s) := by
  unfold Machine.grantRejoin
  split
  · exact h
  · dsimp only
    split
    · exact TestGone.grantLane ((h.updCar _).updCar _) _
    · exact (h.updCar _).handOver _

theorem carriageRetried (h : TestGone P v s) (mask : LaneMask) : TestGone P v (carriageRetried m mask s) := by
  unfold Machine.carriageRetried
  split
  · exact h
  · split
    · exact TestGone.handOver ((h.updCar _).setEngine _) _
    · exact h

theorem carriageRejoin (h : TestGone P v s) (mask : LaneMask) : TestGone P v (carriageRejoin m mask s) := by
  unfold Machine.carriageRejoin
  split
  · exact h
  · split
    · exact h.grantRejoin mask
    · split
      · exact h.carriageRetried mask
      · exact (h.handOver _).removeCarriage
    · exact h.enterAwaitRejoin.grantRejoin mask
    · exact h.enterAwaitRejoin.grantRejoin mask
    · exact h.enterAwaitRejoin.grantRejoin mask
    · exact h.handOver _

/-! ### The queue -/

theorem serveQueue (h : TestGone P v s) (n : Nat) : TestGone P v (serveQueue n s) := by
  induction n generalizing s with
  | zero => exact h
  | succ n ih =>
    unfold Machine.serveQueue
    split
    · exact h
    · next e rest claims =>
      have remote := h.remote
      rw [claims] at remote
      split
      · exact h
      · rw [if_neg (by rw [remote e List.mem_cons_self]; decide)]
        dsimp only
        split
        · refine ih (TestGone.countGrant (TestGone.grantLane (TestGone.setCar (TestGone.commitModule ?_) _) _))
          exact h.fewerClaims fun x mem => remote x (List.mem_cons_of_mem _ mem)
        · exact h

theorem serveOnLane (h : TestGone P v s) : TestGone P v (serveOnLane s) := by
  unfold Machine.serveOnLane
  split
  · split
    · exact h.serveQueue _
    · exact h
  · exact h

theorem handleNotice (h : TestGone P v s) {n : Notice} (quiet : n.quiet = true) : TestGone P v (handleNotice n s) := by
  have woken {u : State} (h : TestGone P v u) : TestGone P v (noting wakeOrigin u) := by
    rw [noting_id (wakeOrigin_calm h.waits)]; exact h
  cases n with
  | grantable m => exact woken (TestGone.noteFreed (h.serveQueue _))
  | laneFree l => exact woken (TestGone.noteFreed h.serveOnLane)
  | newEntry => exact woken h
  | localEnd r => cases quiet
  | localRefused => cases quiet

theorem drain (h : TestGone P v s) (n : Nat) : TestGone P v (drain n s) := by
  induction n generalizing s with
  | zero => exact h
  | succ n ih =>
    unfold Machine.drain
    split
    · exact h
    · next x rest notices =>
      have quiet := h.quiet
      rw [notices] at quiet
      have kept : TestGone P v { s with notices := rest } :=
        ⟨h.svc, h.lanes, h.engine, h.remote, h.waits, fun y mem => quiet y (List.mem_cons_of_mem _ mem)⟩
      exact ih (kept.handleNotice (quiet x List.mem_cons_self))

theorem clearStale (h : TestGone P v s) (o : Station) (tag : Tag) : TestGone P v (clearStale o tag s) := by
  have stale {u : State} (h : TestGone P v u) (m : Mod) : TestGone P v (endStale o tag m u) := by
    unfold endStale
    split
    · exact h.carriageReleased
    · exact h
  unfold Machine.clearStale
  dsimp only
  split
  · have cleared := stale (stale (h.keepClaims fun e => !(e.origin == o && e.tag != tag)) .a) .b
    split
    · exact TestGone.serveQueue cleared.noteFreed _
    · exact cleared.noteFreed
  · exact h

theorem removeAndServe (h : TestGone P v s) (o : Station) (tag : Tag) (f : Frame) :
    TestGone P v (removeAndServe o tag (Machine.handOver f) s) := by
  have removed : TestGone P v (Machine.handOver f (removeClaim o tag s)) :=
    TestGone.handOver (h.keepClaims _) f
  unfold Machine.removeAndServe
  dsimp only
  split
  · exact removed.serveQueue _
  · exact removed

theorem admitClaim (h : TestGone P v s) (o : Station) (tag : Tag) (mask : LaneMask) : TestGone P v (admitClaim o tag mask s) := by
  unfold Machine.admitClaim
  split
  · exact h.handOver _
  · split
    · exact h.handOver _
    · unfold placeClaim
      split
      · split
        · exact TestGone.countGrant (TestGone.grantLane (TestGone.setCar h.commitModule _) _)
        · exact h.handOver _
      · split
        · exact (h.joinClaims rfl).handOver _
        · exact h.handOver _

theorem claimNew (h : TestGone P v s) (o : Station) (tag : Tag) (mask : LaneMask) : TestGone P v (claimNew o tag mask s) := by
  unfold Machine.claimNew
  split
  · exact h.carriageRetried mask
  · split
    · exact TestGone.handOver (h.updClaim o tag (f := fun e => { e with mask := some mask, lastWait := some s.now }) fun _ => rfl) _
    · split
      · exact h
      · exact (h.clearStale o tag).admitClaim o tag mask

theorem claimRejoin (h : TestGone P v s) (o : Station) (tag : Tag) (mask : LaneMask) : TestGone P v (claimRejoin o tag mask s) := by
  unfold Machine.claimRejoin
  dsimp only
  split
  · exact h.carriageRejoin mask
  · split
    · exact h.removeAndServe o tag _
    · split
      · exact h
      · exact (h.clearStale o tag).handOver _

theorem updSched (h : TestGone P v s) (f : OfferSchedule → OfferSchedule) : TestGone P v (s.updSched f) :=
  h.same rfl rfl rfl rfl ⟨rfl, rfl⟩ rfl

theorem offerSync (h : TestGone P v u) : TestGone P v (offerSync s u) := by
  have turnsNo : TestGone P v (flagTurnsNo u) := by
    unfold flagTurnsNo
    dsimp only
    split
    · exact ((h.updSched _).handOver _).updSched _
    · exact h.updSched _
  unfold Machine.offerSync
  split
  · split
    · split
      · exact h
      · exact turnsNo
    · split
      · exact h.updSched _
      · exact h
    · exact h
    · exact h
  · split
    · unfold compareContent
      split
      · exact h.updSched _
      · exact h
    · exact h

end TestGone

/-! ## The claim (R183) -/

section
variable {t : Time} {x : LaneTest} {s u : State} {f : Rx}

/-- R183: what a claim leaves of the lane test that it ended. -/
def ClaimAborted (t : Time) (x : LaneTest) (s u : State) : Prop :=
  u.svc = { s.svc with record := testRecord x .aborted (s.engine .e0) (max s.now t), test := none } ∧
    (∀ l, (u.lane l).owner = some .laneTest → (s.lane l).owner = some .laneTest ∧ l ≠ x.lane) ∧
    (u.engine .e0).user ≠ some .laneTest

/-- R60, R183: a test in progress ends before the claim is taken. -/
theorem arbiterClaim_aborts (heard : s.hears f) (length : f.payload.length = 3) (kind : octAt f.payload 1 ≤ 1) :
    arbiterClaim f u =
      if octAt f.payload 1 = 0 then
        claimNew f.sender.toNat (octetAt f.payload 0) (maskOf (octetAt f.payload 2)) (endTest .aborted u)
      else claimRejoin f.sender.toNat (octetAt f.payload 0) (maskOf (octetAt f.payload 2)) (endTest .aborted u) := by
  obtain ⟨target, _, sender, _⟩ := heard
  refine if_neg ?_
  rw [unaddressed_eq_true, length]
  rintro ((h | h) | h | h)
  · exact target h
  · exact sender h
  · exact h rfl
  · omega

/-- R183: the state in which a claim that ends a lane test is taken. -/
def State.untested (s : State) (x : LaneTest) (y : LaneEntry) (e : Engine) (ga gb : PerLane Bool) (k : BitVec 16) (ns : List Notice) :
    State :=
  { s with
    svc := { s.svc with record := testRecord x .aborted (s.engine .e0) s.now, test := none }, lanes := s.lanes.set x.lane y,
    csw := { s.csw with gapA := ga, gapB := gb }, engines := s.engines.set .e0 e, notices := ns,
    band := (handOver (testReportFrame x.orderer (testRecord x .aborted (s.engine .e0) s.now)) s).band,
    counters := { s.counters with framesDropped := k } }

/-- R183: the end of the test, as an event takes a claim. -/
theorem endTest_untested (test : s.svc.test = some x) (owner : (s.lane x.lane).owner = some .laneTest) (quiet : s.notices = []) :
    ∃ y e ga gb k ns, endTest .aborted s = s.untested x y e ga gb k ns ∧ TestClosed x s y e ns := by
  obtain ⟨y, ga, gb, e, ns, ended, left⟩ := endTest_eq .aborted test owner
  rw [quiet] at ended
  obtain ⟨k, into⟩ := handOver_into (s := s)
    (u := { s with
      svc := { s.svc with record := testRecord x .aborted (s.engine .e0) s.now, test := none }, lanes := s.lanes.set x.lane y,
      csw := { s.csw with gapA := ga, gapB := gb }, engines := s.engines.set .e0 e, notices := ns })
    (testReportFrame x.orderer (testRecord x .aborted (s.engine .e0) s.now)) rfl rfl
  exact ⟨y, e, ga, gb, k, ns, ended.trans into, left⟩

/-- R183: whatever a claim brings about, the lane test that it ended is over. -/
theorem event_claimAborts {op : State → State} {w : State} (reset : s.inReset = false)
    (run : op (startEvent t s) = w)
    (gone : TestGone (fun l => (s.lane l).owner = some .laneTest ∧ l ≠ x.lane)
      { s.svc with record := testRecord x .aborted (s.engine .e0) (max s.now t), test := none } w) :
    ClaimAborted t x s (event t op s) := by
  rw [event_eq t op s reset]
  have noted : TestGone (fun l => (s.lane l).owner = some .laneTest ∧ l ≠ x.lane)
      { s.svc with record := testRecord x .aborted (s.engine .e0) (max s.now t), test := none } (noting op (startEvent t s)) := by
    unfold noting
    rw [run]
    exact gone.noteFreed
  have left := (noted.drain noticeFuel).offerSync (s := startEvent t s)
  exact ⟨left.svc, left.lanes, left.engine⟩

end

end Sys2Proof.Machine

/-! # The lane test and its report (12, 12.3) -/

namespace Sys2Proof.Machine

section
variable {t : Time} {x : LaneTest} {s : State} {y : LaneEntry} {e : Engine} {ga gb : PerLane Bool} {k : BitVec 16}
  {ns : List Notice}

/-- R183: the lane test has ended before the claim is taken. -/
theorem untested_gone (calm : s.calm) (closed : TestClosed x (hunt (startEvent t s)) y e ns) :
    TestGone (fun l => (s.lane l).owner = some .laneTest ∧ l ≠ x.lane)
      { s.svc with record := testRecord x .aborted (s.engine .e0) (max s.now t), test := none }
      ((hunt (startEvent t s)).untested x y e ga gb k ns) where
  svc := rfl
  lanes := fun l mine => by
    have mine' : ((s.lanes.set x.lane y).get l).owner = some .laneTest := mine
    by_cases same : l = x.lane
    · rw [same, PerLane.get_set_self, closed.owner] at mine'
      cases mine'
    · rw [PerLane.get_set_ne _ _ _ _ same] at mine'
      exact ⟨mine', same⟩
  engine := ne_of_eq_of_ne closed.user (by nofun)
  remote := by rw [show ((hunt (startEvent t s)).untested x y e ga gb k ns).claims = [] from calm.1]; simp
  waits := calm.2
  quiet := closed.quiet

/-- R61, R69, R183: the refusal of a claim follows the report of the test that it ended. -/
theorem event_refusesAfterTest {op : State → State} {f : Frame} (reset : s.inReset = false) (calm : s.calm)
    (closed : TestClosed x (hunt (startEvent t s)) y e ns)
    (run : op (startEvent t s) = handOver f ((hunt (startEvent t s)).untested x y e ga gb k ns)) :
    (event t op s).band =
      (handOver f (handOver (testReportFrame x.orderer (testRecord x .aborted (s.engine .e0) (max s.now t))) (hunt s))).band := by
  have calm' : (handOver f ((hunt (startEvent t s)).untested x y e ga gb k ns)).calm :=
    ⟨(handOver_claims _ _).trans calm.1, by unfold State.waitsForCandidate; rw [handOver_coc]; exact calm.2⟩
  have notices : (handOver f ((hunt (startEvent t s)).untested x y e ga gb k ns)).notices = ns := handOver_notices _ _
  have left := event_calm reset run calm' (by rw [notices]; exact closed.quiet)
    (by rw [notices]; exact Nat.le_trans closed.few (by decide))
  have same : Unnoticed (startEvent t s) { handOver f ((hunt (startEvent t s)).untested x y e ga gb k ns) with notices := [] } :=
    ⟨rfl, handOver_straps _ _, congrArg _ (handOver_supply _ _), (handOver_dupFault _ _).trans (handOver_dupFault _ _),
      handOver_modules _ _, congrArg _ (handOver_claims _ _)⟩
  rw [left, offerSync_unnoticed same]
  exact handOver_band_congr _ (handOver_straps _ (hunt s)).symm (handOver_band_congr _ (by rfl) (by rfl))

/-- R69: a CLAIM REJOIN that names no record and no queue entry is refused. -/
theorem claimRejoin_refused {o : Station} {tag : Tag} {mask : LaneMask} (dup : s.band.dupFault = false)
    (claims : ∀ e ∈ s.claims, e.origin ≠ o) (carriages : ∀ m c, s.car m = some c → c.origin ≠ o) :
    claimRejoin o tag mask s = handOver (refuseFrame o tag .noRejoin) s := by
  unfold claimRejoin
  dsimp only
  rw [State.carriageOf_none carriages]
  dsimp only
  rw [State.queued_none claims, if_neg Bool.false_ne_true, dup, if_neg Bool.false_ne_true, clearStale_none claims carriages]

end

/-- Settles O58: each way a lane test ends, and its bit clocks and words before. -/
theorem laneTestEndsWithItsReport : Obligations.LaneTestEndsWithItsReport := by
  unfold Obligations.LaneTestEndsWithItsReport
  intro t x s reset calm test owner user lane ended
  have start : (startEvent t s).testedBy s.band x (s.engine .e0) = startEvent t s := State.testedBy_self (s := startEvent t s) test
  refine ⟨fun role due => ?_, fun role due => ?_, fun f heard length stop => ?_, fun h es role check half heard => ?_,
    fun i first role check few => ?_, fun i first role check last seventh => ?_, fun i first role check last free => ?_,
    fun due released third => ?_, fun f heard length => ?_⟩
  · refine exec_endsTest (b := s) (z := x) rfl reset calm ?_ owner rfl rfl rfl rfl
    rw [start]
    exact generationEnds_due (s := startEvent t s) test role due
  · refine exec_endsTest (b := s) (z := x) rfl reset calm ?_ owner rfl rfl rfl rfl
    rw [start]
    exact testTimesOut_due (s := startEvent t s) test role due
  · refine exec_endsTest (b := hunt s) (z := x) rfl reset calm ?_ owner rfl rfl rfl rfl
    have stops : orderStop f (hunt (startEvent t s)) = endTest .aborted (hunt (startEvent t s)) :=
      if_pos (by rw [show (hunt (startEvent t s)).svc = s.svc from rfl, test]; rfl)
    refine ((receive_testOrder (s := startEvent t s) heard length).trans ((testOrder_stop stop).trans stops)).trans ?_
    exact congrArg (endTest .aborted) (State.testedBy_self (s := hunt (startEvent t s)) test).symm
  · have run := (lineArrives_heard (s := startEvent t s) es lane half heard).trans
      (countClocks_test (s := startEvent t s) es user check test)
    exact exec_unnoticed rfl reset run ⟨rfl, rfl, rfl, rfl, rfl, rfl⟩
  · intro y run free
    have word : (y.clocked i.edges).word i (testGoal x.lengthExp) (max s.now t) = _ :=
      (Engine.word_clocked_check check).trans (Engine.checkWord_counts free few)
    have read := wordArrives_test (s := startEvent t s) first user check test word rfl
    refine (exec_unnoticed rfl reset read ⟨rfl, rfl, rfl, rfl, rfl, rfl⟩).trans ?_
    have wraps : Engine.wrapped { y with
          predictor := (nextWord (freeRun i.gapBits y.predictor)).2, run := run, lastWord := some i.word,
          errors := satAdd y.errors (y.wordErrors i), compared := y.compared + 1,
          compare := clockCompare y.compare i.edges } y.compared =
        { y with
          predictor := (nextWord (freeRun i.gapBits y.predictor)).2, run := run, lastWord := some i.word,
          errors := satAdd y.errors (y.wordErrors i), compared := y.compared + 1,
          compare := if (y.compared + 1) % 1024 = 0 then 0 else clockCompare y.compare i.edges } := by
      unfold Engine.wrapped
      by_cases whole : (y.compared + 1) % 1024 = 0
      · rw [if_pos whole]; exact if_pos ⟨Nat.lt_succ_self _, whole⟩
      · rw [if_neg whole]; exact if_neg fun h => whole h.2
    exact congrArg (fun e => Host.Outcome.next ((startEvent t s).testedBy s.band
      (x.peaks (comparePeak y.compare i.edges)) e)) wraps
  · obtain ⟨y, stuck, compared, errors, compare⟩ := wordArrives_stuckTest (s := startEvent t s) first user check test last seventh
    obtain ⟨u, left, gone⟩ := exec_endsTest (c := .stuck t i) (b := s) (x := x) rfl reset calm stuck owner rfl rfl rfl rfl
    have record := testRecord_congr .stuck (x := x.peaks (comparePeak (s.engine .e0).compare i.edges)) (max s.now t)
      (e := { s.engine .e0 with compare := clockCompare (s.engine .e0).compare i.edges }) role compared errors compare
    exact ⟨u, left, (congrArg (fun r => TestEnded t x s s r u) record).mp gone⟩
  · have complete := wordArrives_completeTest (s := startEvent t s) first user check test last free
    obtain ⟨u, left, gone⟩ := exec_endsTest (c := .testCheckComplete t i) (b := s) (x := x) rfl reset calm complete owner rfl rfl rfl rfl
    refine ⟨u, _, left, gone, ?_⟩
    unfold testRecord
    rw [show (x.peaks _).role = .check from role]
    refine ⟨last, rfl, rfl, rfl, rfl, rfl⟩
  · refine ⟨fun state alone => ?_, fun idle failed => ?_⟩
    · obtain ⟨w, o, fresh, _⟩ := newCall_noCandidate
        (s := { startEvent t s with button := { pressed := true, disagree := 0, sampledAt := max s.now t } }) alone
      obtain ⟨v, ns, run, gone, coc, claims, calls, few, quiet⟩ := press_endsTest test owner due released third
        ((originPress_call (s := { startEvent t s with
          button := { pressed := true, disagree := 0, sampledAt := max s.now t } }) state).trans fresh)
      have modules : v.modules = s.modules := (congrArg State.modules gone.1).trans rfl
      have offers : v.offerTable = s.offerTable := (congrArg State.offerTable gone.1).trans rfl
      obtain ⟨c, k, drained, seeks, tag⟩ := drain_noCandidate (s := { v with notices := ns }) noticeFuel (claims.trans calm.1)
        ⟨by unfold localIsCandidate State.moduleList; rw [show State.modules { v with notices := ns } = s.modules from modules]; exact alone.1,
          offers.trans alone.2⟩ quiet (Nat.le_trans few (by decide))
      have left := event_drained reset run modules drained
      rw [offerSync_unnoticed gone.moved.unnoticed] at left
      exact ⟨_, congrArg Host.Outcome.next left, gone.moved, seeks.trans (congrArg Origin.state coc),
        tag.trans (congrArg Origin.tag coc), calls⟩
    · obtain ⟨v, ns, run, gone, coc, claims, calls, few, quiet⟩ := press_endsTest (k := s.lamp) (w := s.csw) (o := [])
        (n := s.counters) test owner due released third
        (originPress_ignored (s := { startEvent t s with
          button := { pressed := true, disagree := 0, sampledAt := max s.now t } }) idle failed)
      have calm' : State.calm { v with notices := ns } :=
        ⟨claims.trans calm.1, by unfold State.waitsForCandidate; dsimp only; rw [coc]; exact calm.2⟩
      have ended' := gone.moved (c := v.coc) (k := v.lamp)
      exact ⟨_, exec_calm rfl reset run calm' quiet (Nat.le_trans few (by decide)) ended'.unnoticed, ended', coc⟩
  · obtain ⟨y, e, ga, gb, k, ns, tested, closed⟩ := endTest_untested (s := hunt (startEvent t s)) test owner rfl
    have gone : TestGone (fun l => (s.lane l).owner = some .laneTest ∧ l ≠ x.lane)
        { s.svc with record := testRecord x .aborted (s.engine .e0) (max s.now t), test := none }
        (endTest .aborted (hunt (startEvent t s))) := by
      rw [tested]
      exact untested_gone calm closed
    have dupFault : ((hunt (startEvent t s)).untested x y e ga gb k ns).band.dupFault = s.band.dupFault := handOver_dupFault _ _
    have claims : ∀ d ∈ ((hunt (startEvent t s)).untested x y e ga gb k ns).claims, d.origin ≠ f.sender.toNat := by
      rw [show ((hunt (startEvent t s)).untested x y e ga gb k ns).claims = [] from calm.1]; simp
    refine ⟨fun new => ?_, fun rejoin => ?_⟩
    · have read := (receive_hears (s := startEvent t s) 7 heard rfl).trans
        ((arbiterClaim_aborts (u := hunt (startEvent t s)) heard length (by omega)).trans (if_pos new))
      refine ⟨_, rfl, event_claimAborts reset read (gone.claimNew _ _ _), fun dup offer others => ?_⟩
      rw [tested] at read
      exact event_refusesAfterTest reset calm closed (read.trans
        ((claimNew_admitted (dupFault.trans dup) claims others).trans (admitClaim_noChannel (.inl offer))))
    · have read := (receive_hears (s := startEvent t s) 7 heard rfl).trans
        ((arbiterClaim_aborts (u := hunt (startEvent t s)) heard length (by omega)).trans (if_neg (by omega)))
      refine ⟨_, rfl, event_claimAborts reset read (gone.claimRejoin _ _ _), fun dup others => ?_⟩
      rw [tested] at read
      exact event_refusesAfterTest reset calm closed (read.trans (claimRejoin_refused (dupFault.trans dup) claims others))

end Sys2Proof.Machine

/-! # RESTART (12, 12.4) -/

namespace Sys2Proof.Machine

/-! ## The emptied band (R168) -/

/-- R168: a band whose queue was emptied and holds these frames of calls and of the service since. -/
def Band.queued (b : Band) (calls services : List Frame) : Band :=
  { b with calls := calls, offer := none, services := services, hand := nextHand none calls none services }

section
variable {s : State} {b : Band} {calls services : List Frame} {f : Frame}

theorem nextHand_again (calls calls' services services' : List Frame) (more : calls ≠ [] → calls' ≠ [])
    (grows : services ≠ [] → services' ≠ []) (same : calls = [] → services ≠ [] → calls' = []) :
    nextHand (nextHand none calls none services) calls' none services' = nextHand none calls' none services' := by
  by_cases some_ : calls = []
  · subst some_
    by_cases also : services = []
    · subst also; rfl
    · rw [same rfl also]
      simp [nextHand, also, grows also]
  · simp [nextHand, some_, more some_]

/-- R167: a frame of a call joins the queue of an emptied band. -/
theorem handOver_queuedCall (own : s.own ≠ 0) (band : s.band = b.queued calls []) (cls : frameClass f.kind = .call)
    (few : calls.length < 12) : handOver f s = { s with band := b.queued (calls ++ [f]) [] } := by
  have room : s.band.size < 12 := by rw [band]; simpa [Band.size, Band.queued] using few
  rw [handOver_joins own ((Band.add_call cls).trans (Band.addCall_room f room)), band]
  have hand := nextHand_again calls (calls ++ [f]) [] [] (fun _ => by simp) id (fun _ h => absurd rfl h)
  exact congrArg (fun g => { s with band := { b.queued (calls ++ [f]) [] with hand := g } }) hand

/-- R167: a service frame joins the queue of an emptied band. -/
theorem handOver_queuedService (own : s.own ≠ 0) (band : s.band = b.queued calls services) (cls : frameClass f.kind = .service)
    (two : services.length < 2) (few : calls.length + services.length < 12) :
    handOver f s = { s with band := b.queued calls (services ++ [f]) } := by
  have room : s.band.services.length < 2 ∧ s.band.size < 12 := by
    rw [band]; exact ⟨two, by simpa [Band.size, Band.queued] using few⟩
  rw [handOver_joins own ((Band.add_service cls).trans (if_pos room)), band]
  have hand := nextHand_again calls calls services (services ++ [f]) id (fun _ => by simp) (fun h _ => h)
  exact congrArg (fun g => { s with band := { b.queued calls (services ++ [f]) with hand := g } }) hand

end

/-! ## The ground of a RESTART (R140, R152) -/

/-- R140, R152: no route is set, no lane owned, no engine at work. -/
structure Grounded (s : State) : Prop where
  csw : s.csw = Switch.reset
  lanes : ∀ l, (s.lane l).owner = none
  engines : ∀ e, (s.engine e).stopped = s.engine e

section
variable {s : State} (ground : Grounded s)
include ground

theorem clearRoutes_grounded (o : Owner) : clearRoutes o s = s := by
  have same : Switch.reset.without o = Switch.reset := by
    have slot : Slot.empty.clearOwned o = Slot.empty := if_neg (by nofun)
    simp [Switch.without, Switch.reset, PerLane.all, slot]
  rw [clearRoutes_eq, ground.csw, same, ← ground.csw]

theorem releaseLane_grounded (l : Lane) (o : Owner) : releaseLane l o s = s :=
  if_neg (by rw [ground.lanes]; nofun)

theorem stopEngine_grounded (e : EngineId) : stopEngine e s = s := by
  show { s with engines := s.engines.set e (s.engine e).stopped } = s
  rw [ground.engines]
  unfold State.engine
  rw [PerEngine.set_get_self]

theorem stopPrompt_grounded (p : PlayerId) (q : Option Prompt) : stopPrompt p q s = s := by
  refine if_neg ?_
  have idle : playerPlays s p q = false := by unfold playerPlays; rw [ground.csw]; cases p <;> rfl
  rw [idle]; decide

omit ground in
/-- A change of other fields leaves the ground as it is. -/
theorem Grounded.same {u : State} (ground : Grounded s) (csw : u.csw = s.csw) (lanes : u.lanes = s.lanes)
    (engines : u.engines = s.engines) : Grounded u :=
  ⟨csw.trans ground.csw, by unfold State.lane; rw [lanes]; exact ground.lanes,
    by unfold State.engine; rw [engines]; exact ground.engines⟩

/-- R57: the origin record gives up a lane that has been released before. -/
theorem dropLane_grounded : ∃ p, dropLane false s = { s with coc := { s.coc with path := p } } := by
  unfold dropLane
  rw [clearRoutes_grounded ground]
  dsimp only
  split
  · exact ⟨s.coc.path, rfl⟩
  · rw [if_neg Bool.false_ne_true, releaseLane_grounded ground]
    exact ⟨_, rfl⟩

/-! ### Carriages (R97, R98) -/

/-- R97, R118: what a module keeps as its carriage is removed. -/
structure KeptService (r x : Module) : Prop where
  power : x.power = r.power
  table : x.table = r.table
  cycles : x.powerCycles = r.powerCycles

omit ground in
theorem clearLink_keptService (m : Mod) :
    ∃ x o, clearLink m (endModuleCall m s) = s.withMod m x o ∧ KeptService (s.mod m) x := by
  cases call : (s.mod m).callInProgress with
  | true => exact ⟨_, _, clearLink_hangsUp call, rfl, rfl, rfl⟩
  | false =>
    obtain ⟨x, o, run, settled⟩ := clearLink_settles call
    exact ⟨x, _, run, settled.power, settled.table, settled.cycles⟩

/-- R97: a carriage is removed at a RESTART. -/
theorem removeCarriage_grounded {m : Mod} {c : Carriage} (car : s.car m = some c) :
    ∃ x o, removeCarriage m s =
      { s with modules := s.modules.set m x, carriages := s.carriages.set m none, out := o } ∧ KeptService (s.mod m) x := by
  obtain ⟨y, released⟩ : ∃ y, releaseCarriageLane m s = { s with carriages := s.carriages.set m y } := by
    unfold releaseCarriageLane
    rw [car]
    dsimp only
    split
    · rw [releaseLane_grounded ground, State.updCar_eq car]
      exact ⟨_, rfl⟩
    · exact ⟨s.carriages.get m, by rw [PerMod.set_get_self]⟩
  have ground' : Grounded { s with carriages := s.carriages.set m y } := ground.same rfl rfl rfl
  obtain ⟨x, o, cleared, kept⟩ := clearLink_keptService (s := { s with carriages := s.carriages.set m y }) m
  refine ⟨x, o, ?_, kept⟩
  unfold removeCarriage
  dsimp only
  rw [stopEngine_grounded ground, released, clearRoutes_grounded ground', stopPrompt_grounded ground', cleared]
  simp only [State.withMod, State.setCar, PerMod.set_set]

end

/-- R98: the RELEASE that a carriage's origin is told at a RESTART. -/
def restartCalls (c : Option Carriage) : List Frame :=
  match c with
  | some c => if c.kind = .peer ∧ c.state ≠ .clearing then [releaseFrame c.origin c.tag .restart] else []
  | none => []

/-- R57: the RELEASE that the origin record's uplink is told at a RESTART. -/
def Origin.restartCalls (c : Origin) : List Frame :=
  match c.path with
  | some p =>
    if p.kind = .peer ∧ c.state ≠ .idle ∧ c.state ≠ .failed then [releaseFrame p.station c.tag .restart] else []
  | none => []

/-- R57: the origin record at a RESTART. -/
def Origin.restarted (c : Origin) : Origin :=
  { c with
    state := .idle, path := none, claimKind := .new, answerDeadline := none, queuePos := none, silenceDeadline := none,
    regrantWait := none, stage := none, network := none, searchDeadline := none, retryTime := none, wokenAt := none,
    failedUntil := none, avoid := [], endReason := if c.state = .idle then c.endReason else .restart }

section
variable {s : State} {b : Band} {calls : List Frame}

theorem restartCalls_length (c : Option Carriage) : (restartCalls c).length ≤ 1 := by
  unfold restartCalls
  split
  · split <;> simp
  · simp

theorem Origin.restartCalls_length (c : Origin) : c.restartCalls.length ≤ 1 := by
  unfold Origin.restartCalls
  split
  · split <;> simp
  · simp

/-- R98: a slot at a RESTART. -/
theorem restartCarriage_grounded (m : Mod) (ground : Grounded s) (own : s.own ≠ 0) (band : s.band = b.queued calls [])
    (few : calls.length < 12) :
    ∃ x o, restartCarriage m s =
      { s with
        band := b.queued (calls ++ restartCalls (s.car m)) [], modules := s.modules.set m x,
        carriages := s.carriages.set m none, out := o } ∧
      KeptService (s.mod m) x ∧ (s.car m = none → x = s.mod m) := by
  cases car : s.car m with
  | none =>
    refine ⟨s.mod m, s.out, ?_, ⟨rfl, rfl, rfl⟩, fun _ => rfl⟩
    have same : s.carriages.set m none = s.carriages := by rw [← car]; exact PerMod.set_get_self _ _
    unfold restartCarriage
    rw [car, same, show restartCalls none = [] from rfl, List.append_nil, ← band, State.mod, PerMod.set_get_self]
  | some c =>
    have told : (if c.kind = .peer ∧ c.state ≠ .clearing then handOver (releaseFrame c.origin c.tag .restart) s else s) =
        { s with band := b.queued (calls ++ restartCalls (some c)) [] } := by
      unfold restartCalls
      dsimp only
      split
      · exact handOver_queuedCall own band rfl few
      · rw [List.append_nil, ← band]
    obtain ⟨x, o, removed, kept⟩ := removeCarriage_grounded (s := { s with band := b.queued (calls ++ restartCalls (some c)) [] })
      (ground.same rfl rfl rfl) (m := m) (c := c) car
    refine ⟨x, o, ?_, kept, nofun⟩
    unfold restartCarriage
    rw [car]
    dsimp only
    rw [told, removed]

/-- R57: the origin record at a RESTART. -/
theorem restartOrigin_grounded (ground : Grounded s) (own : s.own ≠ 0) (band : s.band = b.queued [] []) :
    restartOrigin s = { s with band := b.queued s.coc.restartCalls [], coc := s.coc.restarted } := by
  have told : (if s.coc.state = .idle ∨ s.coc.state = .failed then s else releaseUplink .restart s) =
      { s with band := b.queued s.coc.restartCalls [] } := by
    have quiet (none : s.coc.restartCalls = []) : s = { s with band := b.queued s.coc.restartCalls [] } := by rw [none, ← band]
    by_cases over_ : s.coc.state = .idle ∨ s.coc.state = .failed
    · refine (if_pos over_).trans (quiet ?_)
      unfold Origin.restartCalls
      split
      · exact if_neg fun h => over_.elim h.2.1 h.2.2
      · rfl
    · rw [if_neg over_]
      cases path : s.coc.path with
      | none =>
        have none : s.coc.peer = none := by unfold Origin.peer; rw [path]
        refine Eq.trans (by unfold releaseUplink; rw [none]) (quiet ?_)
        unfold Origin.restartCalls; rw [path]
      | some p =>
        cases kind : p.kind with
        | loc =>
          have none : s.coc.peer = none := by unfold Origin.peer; rw [path]; dsimp only; rw [kind]
          refine Eq.trans (by unfold releaseUplink; rw [none]) (quiet ?_)
          unfold Origin.restartCalls
          rw [path]
          exact if_neg fun h => by rw [kind] at h; cases h.1
        | peer =>
          have peer : s.coc.peer = some p.station := by unfold Origin.peer; rw [path]; dsimp only; rw [kind]
          have calls : s.coc.restartCalls = [] ++ [releaseFrame p.station s.coc.tag .restart] := by
            unfold Origin.restartCalls
            rw [path]
            exact if_pos ⟨kind, not_or.mp over_⟩
          rw [calls]
          exact (releaseUplink_peer .restart peer).trans (handOver_queuedCall own band rfl (by simp))
  obtain ⟨p, dropped⟩ := dropLane_grounded (s := { s with band := b.queued s.coc.restartCalls [] }) (ground.same rfl rfl rfl)
  unfold restartOrigin
  dsimp only
  rw [told, dropped]
  rfl

end

/-! ## The blocks in their RESTART conditions (R184) -/

/-- R140: what a RESTART leaves of a lane. -/
structure LaneRestarted (x y : LaneEntry) (now : Time) : Prop where
  owner : y.owner = none
  occupancy : y.occupancy ≠ .own
  supervised : y.supervised = false
  quarantine : y.quarantineUntil = x.quarantineUntil
  free : x.owner = none → x.occupancy ≠ .own → y.occupancy = x.occupancy ∧ y.quietSince = x.quietSince
  owned : x.owner ≠ none →
    y.occupancy = .busy ∧ y.quietSince = if x.carrierA = true ∨ x.carrierB = true then none else some now

theorem restartLane_spec (x : LaneEntry) (now : Time) : LaneRestarted x (restartLane x now) now := by
  by_cases taken : x.owner.isSome = true ∨ x.occupancy = .own
  · have left : restartLane x now =
        { x with
          supervised := false, gapStart := none, occupancy := .busy, owner := none,
          quietSince := if x.carrierA || x.carrierB then none else some now } :=
      if_pos (by simpa using taken)
    rw [left]
    refine ⟨rfl, by show Occupancy.busy ≠ _; decide, rfl, rfl, fun free notOwn => ?_, fun _ => ⟨rfl, by simp⟩⟩
    rcases taken with owned | own
    · rw [free] at owned; cases owned
    · exact absurd own notOwn
  · obtain ⟨free, notOwn⟩ := not_or.mp taken
    have owner : x.owner = none := by simpa using free
    have left : restartLane x now = { x with supervised := false, gapStart := none } := if_neg (by simpa using taken)
    rw [left]
    exact ⟨owner, notOwn, rfl, rfl, fun _ _ => ⟨rfl, rfl⟩, fun owned => absurd owner owned⟩

/-- R78, R140, R152, R168: the ground of a RESTART. -/
theorem restartGround_grounded (s : State) : Grounded (restartGround s) where
  csw := rfl
  lanes := fun l => by cases l <;> exact (restartLane_spec _ _).owner
  engines := fun e => by cases e <;> rfl

theorem restartGround_lane (s : State) (l : Lane) : (restartGround s).lane l = restartLane (s.lane l) s.now := by
  cases l <;> rfl

theorem restartGround_engine (s : State) (e : EngineId) : (restartGround s).engine e = (s.engine e).stopped := by
  cases e <;> rfl

/-- R183: a stopped engine keeps the figures of a test. -/
theorem testRecord_stopped (x : LaneTest) (r : TestResult) (e : Engine) (now : Time) :
    testRecord x r e.stopped now = testRecord x r e now := rfl

/-- R183, R184: the responder's record after a RESTART, its outcome still to be set. -/
def Service.restarted (v : Service) (e : Engine) (now : Time) : Service :=
  match v.test with
  | some x => { v with record := testRecord x .aborted e now, test := none }
  | none => v

/-- R183: a test in progress ends at a RESTART. -/
theorem restartTest_grounded {s : State} (ground : Grounded s) :
    restartTest s = { s with svc := s.svc.restarted (s.engine .e0) s.now } := by
  cases test : s.svc.test with
  | none =>
    have kept : s.svc.restarted (s.engine .e0) s.now = s.svc := by unfold Service.restarted; rw [test]
    have same : restartTest s = s := by unfold restartTest; rw [test]
    rw [kept, same]
  | some x =>
    have record : s.svc.restarted (s.engine .e0) s.now =
        { s.svc with record := testRecord x .aborted (s.engine .e0) s.now, test := none } := by
      unfold Service.restarted; rw [test]
    have closes : restartTest s = closeTest x .aborted s := by unfold restartTest; rw [test]
    rw [closes, record]
    unfold closeTest
    dsimp only
    rw [releaseLane_grounded ground, stopEngine_grounded ground]
    rfl

/-- R5: the schedule as it starts. -/
def State.startedSched (s : State) : OfferSchedule := (startSchedule s).sched

/-- R98: the frames of the calls that a RESTART ends. -/
def State.restartFrames (s : State) : List Frame :=
  s.coc.restartCalls ++ restartCalls (s.car .a) ++ restartCalls (s.car .b)

theorem State.restartFrames_length (s : State) : s.restartFrames.length ≤ 3 := by
  have o := s.coc.restartCalls_length
  have a := restartCalls_length (s.car .a)
  have b := restartCalls_length (s.car .b)
  unfold State.restartFrames
  rw [List.length_append, List.length_append]
  omega

/-- R184: what is left of the station's blocks, before the answer. -/
def State.restarted (s : State) (x y : Module) (o : List Output) : State :=
  { s with
    band := s.band.queued s.restartFrames [], coc := s.coc.restarted, lamp := Lamp.start (wantedPattern s .dark) s.now,
    csw := Switch.reset, sched := s.startedSched, offerTable := [], claims := [], carriages := { a := none, b := none },
    modules := { a := x, b := y }, lanes := (restartGround s).lanes, engines := (restartGround s).engines,
    svc := { s.svc.restarted (s.engine .e0) s.now with lastRestart := .done }, out := o }

/-- R184: what a RESTART leaves of the modules. -/
structure ModulesKept (s : State) (x y : Module) : Prop where
  a : KeptService (s.mod .a) x
  b : KeptService (s.mod .b) y
  freeA : s.car .a = none → x = s.mod .a
  freeB : s.car .b = none → y = s.mod .b

/-- R184: the blocks take their RESTART conditions. -/
theorem restartBlocks_eq {s : State} (own : s.own ≠ 0) :
    ∃ x y o, setRestartOutcome .done (restartBlocks s) = s.restarted x y o ∧ ModulesKept s x y := by
  have origin := restartOrigin_grounded (s := restartGround s) (b := s.band) (restartGround_grounded s) own rfl
  have ground : Grounded (restartOrigin (restartGround s)) := by
    rw [origin]; exact (restartGround_grounded s).same rfl rfl rfl
  have o := s.coc.restartCalls_length
  have a := restartCalls_length (s.car .a)
  obtain ⟨x, out, first, keptA, freeA⟩ := restartCarriage_grounded (s := restartOrigin (restartGround s)) (b := s.band)
    (calls := s.coc.restartCalls) .a ground (by rw [origin]; exact own) (by rw [origin]; rfl) (by omega)
  have ground' : Grounded (restartCarriage .a (restartOrigin (restartGround s))) := by
    rw [first]; exact ground.same rfl rfl rfl
  obtain ⟨y, out', second, keptB, freeB⟩ := restartCarriage_grounded (s := restartCarriage .a (restartOrigin (restartGround s)))
    (b := s.band) (calls := s.coc.restartCalls ++ restartCalls (s.car .a)) .b ground' (by rw [first, origin]; exact own)
    (by rw [first, origin]; rfl) (by rw [List.length_append]; omega)
  have ground'' : Grounded (restartCarriage .b (restartCarriage .a (restartOrigin (restartGround s)))) := by
    rw [second]; exact ground'.same rfl rfl rfl
  have test := restartTest_grounded ground''
  rw [first, origin] at second keptB freeB
  rw [origin] at keptA freeA
  refine ⟨x, y, out', ?_, keptA, keptB, freeA, freeB⟩
  unfold restartBlocks
  dsimp only
  rw [test, first, origin, second]
  rfl

end Sys2Proof.Machine

/-! # The RESTART order (12, 12.4) -/

namespace Sys2Proof.Machine

/-- R184: the report of a test that a RESTART has ended. -/
def restartReports (s : State) (r : ResultRecord) : List Frame :=
  match s.svc.test with
  | some x => [testReportFrame x.orderer r]
  | none => []

/-- R5: the phase in which the schedule starts. -/
theorem startedSched_spec {s : State} (own : s.own ≠ 0) :
    (s.startedSched.phase =
      if s.straps.offer = false ∨ (s.straps.modA = false ∧ s.straps.modB = false) then .silent else .starting) ∧
    (s.startedSched.phase = .starting → s.startedSched.firstDue = some (s.now + ms (500 + 20 * s.own))) := by
  unfold State.startedSched startSchedule
  dsimp only
  by_cases silent : s.straps.offer = false ∨ (s.straps.modA = false ∧ s.straps.modB = false)
  · rw [if_pos (.inr silent), if_pos silent]
    exact ⟨rfl, nofun⟩
  · rw [if_neg (not_or.mpr ⟨own, silent⟩), if_neg silent]
    exact ⟨rfl, fun _ => rfl⟩

/-- R4, R10: outside ACTIVE the comparison of the content changes nothing. -/
theorem offerSync_inactive {s0 s : State} (flag : s.offeringFlag = s0.offeringFlag) (phase : s.sched.phase ≠ .active) :
    offerSync s0 s = s := by
  unfold offerSync
  rw [if_neg (by simp [flag])]
  split
  · exact if_neg fun h => phase h.1
  · rfl

/-- R165: the frame that comes into hand after a RESTART. -/
theorem nextHand_restart (calls : List Frame) (f : Frame) (services : List Frame) :
    nextHand none calls none (f :: services) =
      some { cls := if calls = [] then .service else .call, line := none, collisions := 0, replaced := false } := by
  cases calls <;> rfl

/-- R184: the RESTART as the event leaves it. -/
def State.afterRestart (s : State) (target : Octet) (x y : Module) (o : List Output) : State :=
  { s.restarted x y o with
    band := s.band.queued s.restartFrames
      (statusReport target (generalOctets (s.restarted x y o)) :: restartReports s (s.restarted x y o).svc.record) }

/-- R184: the RESTART is carried out and answered. -/
theorem carryOutRestart_eq {s : State} (target : Octet) (own : s.own ≠ 0) :
    ∃ x y o, carryOutRestart target s = s.afterRestart target x y o ∧ ModulesKept s x y := by
  obtain ⟨x, y, o, blocks, kept⟩ := restartBlocks_eq own
  have few := s.restartFrames_length
  have answered : answerGeneral target (s.restarted x y o) =
      { s.restarted x y o with
        band := s.band.queued s.restartFrames ([] ++ [statusReport target (generalOctets (s.restarted x y o))]) } :=
    handOver_queuedService own rfl rfl (by simp) (by simp; omega)
  refine ⟨x, y, o, ?_, kept⟩
  unfold carryOutRestart
  dsimp only
  rw [blocks, answered]
  cases test : s.svc.test with
  | none =>
    unfold State.afterRestart restartReports
    rw [test]
    rfl
  | some z =>
    refine (handOver_queuedService (s := { s.restarted x y o with
      band := s.band.queued s.restartFrames ([] ++ [statusReport target (generalOctets (s.restarted x y o))]) })
      (b := s.band) (calls := s.restartFrames)
      (services := [statusReport target (generalOctets (s.restarted x y o))])
      (f := testReportFrame z.orderer (s.restarted x y o).svc.record) own rfl rfl (by simp)
      (by simp only [List.length_singleton]; omega)).trans ?_
    unfold State.afterRestart restartReports
    rw [test]
    rfl

/-- Settles O60: a RESTART is refused, or each block takes its RESTART condition and the frames follow. -/
theorem restartClearsOrIsRefused : Obligations.RestartClearsOrIsRefused := by
  unfold Obligations.RestartClearsOrIsRefused
  intro t f s reset heard length
  have own : (hunt (startEvent t s)).own ≠ 0 := State.hears_own (s := s) heard
  have read : receive 36 f (startEvent t s) = restartOrder f (hunt (startEvent t s)) :=
    (receive_hears (s := startEvent t s) 36 heard rfl).trans (serviceFrame_heard (s := s) _ heard length)
  refine ⟨fun force active => ?_, fun taken => ?_⟩
  · intro refused
    have answer : restartOrder f (hunt (startEvent t s)) =
        handOver { kind := .statusReport, target := f.sender, payload := generalOctets refused } refused :=
      if_pos ⟨force, active⟩
    exact exec_handsOver (c := .restart t f) rfl reset (read.trans answer) ⟨rfl, rfl, rfl, rfl, rfl, rfl⟩
  · have takes : ¬ (octAt f.payload 0 ≠ 1 ∧ (hunt (startEvent t s)).recordActive = true) := by
      rintro ⟨force, active⟩
      exact taken.elim force fun idle => Bool.false_ne_true (idle.symm.trans active)
    obtain ⟨x, y, o, carried, kept⟩ := carryOutRestart_eq (s := hunt (startEvent t s)) f.sender own
    obtain ⟨phase, first⟩ := startedSched_spec (s := hunt (startEvent t s)) own
    have run : receive 36 f (startEvent t s) = (hunt (startEvent t s)).afterRestart f.sender x y o :=
      read.trans ((if_neg takes).trans carried)
    have calm : ((hunt (startEvent t s)).afterRestart f.sender x y o).calm := ⟨rfl, rfl⟩
    have inactive : (hunt (startEvent t s)).startedSched.phase ≠ .active := by
      rw [phase]; split <;> nofun
    have left : exec (.restart t f) s = .next ((hunt (startEvent t s)).afterRestart f.sender x y o) :=
      congrArg Host.Outcome.next ((event_calm reset run calm nofun (by simp [State.afterRestart, State.restarted, startEvent, hunt])).trans
        (offerSync_inactive rfl inactive))
    refine ⟨_, left, rfl, ?_, rfl, fun l => ?_, fun e => ?_, ?_, fun m => ?_, rfl, ?_, phase, first⟩
    · show Band.queued _ _ _ = _
      unfold Band.queued
      rw [nextHand_restart]
      rfl
    · have lane : ((hunt (startEvent t s)).afterRestart f.sender x y o).lane l = restartLane (s.lane l) (max s.now t) :=
        restartGround_lane (hunt (startEvent t s)) l
      have restarted := restartLane_spec (s.lane l) (max s.now t)
      rw [lane]
      exact ⟨restarted.owner, restarted.occupancy, restarted.supervised, restarted.quarantine, restarted.free, restarted.owned⟩
    · have engine : ((hunt (startEvent t s)).afterRestart f.sender x y o).engine e = (s.engine e).stopped :=
        restartGround_engine (hunt (startEvent t s)) e
      rw [engine]
      exact ⟨rfl, rfl, rfl⟩
    · show { (s.svc.restarted (s.engine .e0) (max s.now t)) with lastRestart := .done } = _
      unfold Service.restarted
      cases test : s.svc.test with
      | none =>
        dsimp only
        rw [← test]
      | some z => rfl
    · cases m with
      | a => exact ⟨kept.a.power, kept.a.table, kept.a.cycles, kept.freeA⟩
      | b => exact ⟨kept.b.power, kept.b.table, kept.b.cycles, kept.freeB⟩
    · show wantedPattern (hunt (startEvent t s)) .dark = _
      unfold wantedPattern
      simp only [true_and]
      rfl

end Sys2Proof.Machine

/-! # Local claims and the service of the queue (03, 3.3; 04, 4.5, 4.7) -/

namespace Sys2Proof.Machine

/-! ## A local claim that is granted (R37, R65, R67) -/

/-- R37: the origin record as its local claim is granted. -/
def Origin.onModule (c : Origin) (m : Mod) : Origin :=
  { c with
    state := .dialing, path := c.path.map fun p => { p with module := some m }, stage := none, queuePos := none,
    searchDeadline := none }

/-- R46: the origin record as the first attempt of a local call is named. -/
def Origin.dials (c : Origin) (code : Code) : Origin := { c with stage := some .dialing, network := some code }

section
variable {s : State} {m : Mod} {p : Path} {c : Carriage} {code : Code}

/-- R56: the routes of the origin record on a LOCAL path. -/
theorem setOriginRoutes_local (path : s.coc.path = some p) (kind : p.kind = .loc) (module : p.module = some m) :
    ∃ w, setOriginRoutes s = { s with csw := w } ∧ w.speaker.base = some (.modRx m) ∧ (w.modTx.get m).base = some .mic := by
  obtain ⟨x, set, base, _⟩ := setRoute_eq .speaker (.modRx m) .origin s
  obtain ⟨y, set', base', _⟩ := setRoute_eq (.modTx m) .mic .origin { s with csw := s.csw.setSlot .speaker x }
  have routes : setOriginRoutes s = setRoute (.modTx m) .mic .origin (setRoute .speaker (.modRx m) .origin s) := by
    unfold setOriginRoutes
    rw [path]
    dsimp only
    rw [kind, module]
  exact ⟨_, routes.trans ((congrArg _ set).trans set'), base,
    (congrArg Slot.base (Switch.slot_setSlot_self (s.csw.setSlot .speaker x) (.modTx m) y)).trans base'⟩

theorem onLocalPath_of (path : s.coc.path = some p) (kind : p.kind = .loc) : s.onLocalPath = true := by
  unfold State.onLocalPath; rw [path]; dsimp only; rw [kind]; rfl

/-- R37: the record of a granted local claim is DIALING, with its routes. -/
theorem localGranted_eq (path : s.coc.path = some p) (kind : p.kind = .loc) :
    ∃ w, localGranted m s = { s with coc := s.coc.onModule m, lamp := s.lampFor .seek, csw := w } ∧
      w.speaker.base = some (.modRx m) ∧ (w.modTx.get m).base = some .mic := by
  obtain ⟨w, routed, speaker, module⟩ := setOriginRoutes_local (m := m) (p := { p with module := some m })
    (s := { s with coc := s.coc.onModule m, lamp := s.lampFor .seek })
    (by show s.coc.path.map _ = _; rw [path]; rfl) kind rfl
  exact ⟨w, (if_pos (onLocalPath_of path kind)).trans routed, speaker, module⟩

/-- R46, R85: the first network of a local call is named to the origin record. -/
theorem networkNamed_local (car : s.car m = some c) (loc : c.kind = .loc) (first : c.tried = []) (state : s.coc.state = .dialing)
    (path : s.coc.path = some p) (kind : p.kind = .loc) :
    networkNamed m code s = { s.setCar m (some (c.tries code)) with coc := s.coc.dials code } := by
  have stage : c.namedStage = .dialing := Carriage.namedStage_first first
  have told : networkNamed m code s = stageReport c c.namedStage code (s.setCar m (some (c.tries code))) := by
    unfold networkNamed
    rw [car]
    dsimp only
    rw [State.updCar_eq car]
    rfl
  have reported (u : State) (same : u.coc = s.coc) :
      stageReport c .dialing code u = { u with coc := s.coc.dials code } := by
    unfold stageReport localStage
    rw [loc]
    dsimp only
    rw [if_pos (onLocalPath_of (by rw [same]; exact path) kind)]
    unfold originStage
    rw [same, state]
    simp only [State.updCoc, Origin.dials, same, show (Stage.dialing == Stage.answered) = false from rfl, Bool.or_false]
  rw [told, stage]
  exact reported _ rfl

/-- R37, R65, R79: a local claim as it is granted: the module committed, the carriage made, the record answered. -/
def State.grantsLocal (s : State) (m : Mod) (tag : Tag) (r : Module) (out : List Output) (w : Switch) : State :=
  { s with
    modules := s.modules.set m r, out := out, carriages := s.carriages.set m (some (newCarriage s.own tag .loc none)),
    counters := { s.counters with callsGranted := satInc s.counters.callsGranted }, coc := s.coc.onModule m,
    lamp := s.lampFor .seek, csw := w }

/-- R79: the answer to a local claim, and then its first dial attempt. -/
theorem grantLocal_eq {r : Module} {out : List Output} (tag : Tag) (path : s.coc.path = some p) (kind : p.kind = .loc)
    (commits : commitModule m s = s.withMod m r out) :
    ∃ w, grantLocal m tag s = startAttempt m (s.grantsLocal m tag r out w) ∧
      w.speaker.base = some (.modRx m) ∧ (w.modTx.get m).base = some .mic := by
  obtain ⟨w, granted, routes⟩ := localGranted_eq (m := m)
    (s := countGrant ((s.withMod m r out).setCar m (some (newCarriage s.own tag .loc none)))) path kind
  refine ⟨w, ?_, routes⟩
  unfold grantLocal
  rw [commits, granted]
  rfl

/-- R85, R115: the first attempt of a local call, by the module's order. -/
theorem startAttempt_local {r x : Module} {out out' : List Output} {w : Switch} {tag : Tag} (path : s.coc.path = some p)
    (kind : p.kind = .loc) (flight : r.inFlight = none)
    (orders : dialNow m [] (s.grantsLocal m tag r out w) = networkNamed m code (s.grantsLocal m tag x out' w)) :
    startAttempt m (s.grantsLocal m tag r out w) =
      { s.grantsLocal m tag x out' w with
        coc := (s.coc.onModule m).dials code,
        carriages := s.carriages.set m (some ((newCarriage s.own tag .loc none).tries code)) } := by
  have car (r : Module) (out : List Output) : (s.grantsLocal m tag r out w).car m = some (newCarriage s.own tag .loc none) :=
    PerMod.get_set_self _ _ _
  have module : (s.grantsLocal m tag r out w).mod m = r := PerMod.get_set_self _ _ _
  have path' : (s.grantsLocal m tag x out' w).coc.path = some { p with module := some m } := congrArg (Option.map _) path
  refine (startAttempt_free (car r out) (by rw [module]; exact flight)).trans (orders.trans ?_)
  refine (networkNamed_local (car x out') rfl rfl rfl path' kind).trans ?_
  simp only [State.setCar, State.grantsLocal, PerMod.set_set]

/-- R85, R115: a local call dials on the network selected. -/
theorem startAttempt_dials {r : Module} {out : List Output} {w : Switch} {tag : Tag} (path : s.coc.path = some p)
    (kind : p.kind = .loc) (flight : r.inFlight = none) (choice : dialChoice r.table r.selected [] = .dial code) :
    startAttempt m (s.grantsLocal m tag r out w) =
      { s.grantsLocal m tag (r.dials s.now) (out ++ [.order m .dial 0]) w with
        coc := (s.coc.onModule m).dials code,
        carriages := s.carriages.set m (some ((newCarriage s.own tag .loc none).tries code)) } := by
  refine startAttempt_local path kind flight ?_
  have form (x : Module) (o : List Output) : s.grantsLocal m tag x o w = (s.grantsLocal m tag r out w).withMod m x o := by
    simp only [State.grantsLocal, State.withMod, PerMod.set_set]
  have own := form r out
  rw [form (r.dials s.now)]
  conv => lhs; rw [own]
  exact dialNow_dial choice

/-- R85, R115: a local call selects another network first. -/
theorem startAttempt_selects {r : Module} {out : List Output} {w : Switch} {tag : Tag} (path : s.coc.path = some p)
    (kind : p.kind = .loc) (flight : r.inFlight = none) (choice : dialChoice r.table r.selected [] = .select code) :
    startAttempt m (s.grantsLocal m tag r out w) =
      { s.grantsLocal m tag (r.selects code s.now) (out ++ [.order m .select code]) w with
        coc := (s.coc.onModule m).dials code,
        carriages := s.carriages.set m (some ((newCarriage s.own tag .loc none).tries code)) } := by
  refine startAttempt_local path kind flight ?_
  have form (x : Module) (o : List Output) : s.grantsLocal m tag x o w = (s.grantsLocal m tag r out w).withMod m x o := by
    simp only [State.grantsLocal, State.withMod, PerMod.set_set]
  have own := form r out
  rw [form (r.selects code s.now)]
  conv => lhs; rw [own]
  exact dialNow_select choice

/-- R85, R101: an attempt waits in the pending slot while an order is in flight. -/
theorem startAttempt_pending {r : Module} {out : List Output} {w : Switch} {tag : Tag} {o : OrderInFlight}
    (flight : r.inFlight = some o) :
    startAttempt m (s.grantsLocal m tag r out w) = s.grantsLocal m tag { r with pendingOrder := some (.dial []) } out w := by
  have car : (s.grantsLocal m tag r out w).car m = some (newCarriage s.own tag .loc none) := PerMod.get_set_self _ _ _
  have module : (s.grantsLocal m tag r out w).mod m = r := PerMod.get_set_self _ _ _
  have waits : startAttempt m (s.grantsLocal m tag r out w) =
      (s.grantsLocal m tag r out w).updMod m fun r => { r with pendingOrder := some (.dial []) } := by
    unfold startAttempt
    rw [car]
    dsimp only
    rw [module, flight]
    rfl
  rw [waits, State.updMod_eq, module]
  simp only [State.grantsLocal, State.withMod, PerMod.set_set]

end

/-! ## The service of the queue (R73) -/

section
variable {s : State} {m : Mod} {e : ClaimEntry} {rest : List ClaimEntry} {mask : LaneMask} {l : Lane}

/-- R59: without a grantable module none is chosen. -/
theorem chooseModule_none (not : ∀ n, (s.mod n).grantable = false) : chooseModule s = none := by
  have a : s.modules.a.grantable = false := not .a
  have b : s.modules.b.grantable = false := not .b
  unfold chooseModule
  rw [a, b]

/-- R73: without a grantable module nobody is served. -/
theorem serveQueue_none (n : Nat) (none : chooseModule s = none) : serveQueue n s = s := by
  cases n with
  | zero => rfl
  | succ n =>
    unfold serveQueue
    cases s.claims with
    | nil => rfl
    | cons e rest => dsimp only; rw [none]

/-- R73: the remote head is granted, and the service stops with the last grantable module. -/
theorem serve_remote (claims : s.claims = e :: rest) (remote : e.loc = false) (named : e.mask = some mask)
    (chosen : chooseModule s = some m) (lane : chooseLane mask s = some l)
    (stops : chooseModule (grantRemote m l e.origin e.tag mask (tellPosition { s with claims := rest })) = none) :
    serve s = grantRemote m l e.origin e.tag mask (tellPosition { s with claims := rest }) := by
  unfold serve
  rw [claims]
  show serveQueue (rest.length + 1) s = _
  unfold serveQueue
  rw [claims]
  dsimp only
  rw [chosen, remote, named]
  dsimp only
  rw [if_neg Bool.false_ne_true, show (some mask).getD 0 = mask from rfl, lane]
  exact serveQueue_none _ stops

/-- R73: the local head is granted, and the service stops with the last grantable module. -/
theorem serve_local (claims : s.claims = e :: rest) (loc : e.loc = true) (chosen : chooseModule s = some m)
    (stops : chooseModule (grantLocal m e.tag (tellPosition { s with claims := rest })) = none) :
    serve s = grantLocal m e.tag (tellPosition { s with claims := rest }) := by
  unfold serve
  rw [claims]
  show serveQueue (rest.length + 1) s = _
  unfold serveQueue
  rw [claims]
  dsimp only
  rw [chosen, loc]
  dsimp only
  rw [if_pos rfl]
  exact serveQueue_none _ stops

/-- R68: a changed position moves the origin record's note of it only. -/
theorem tellPosition_eq (s : State) :
    ∃ n, tellPosition s = { s with coc := { s.coc with queuePos := n } } := by
  unfold tellPosition
  split
  · split
    · exact ⟨_, rfl⟩
    · exact ⟨s.coc.queuePos, rfl⟩
  · exact ⟨s.coc.queuePos, rfl⟩

end

end Sys2Proof.Machine

/-! # Claims that wait, leave and are served (04, 4.1, 4.5, 4.7) -/

namespace Sys2Proof.Machine

/-! ## The position of the local claim (R68) -/

theorem localPositionFrom_none {n : Nat} {q : List ClaimEntry} : localPositionFrom n q = none ↔ ∀ e ∈ q, e.loc = false := by
  induction q generalizing n with
  | nil => simp [localPositionFrom]
  | cons e rest ih =>
    unfold localPositionFrom
    cases loc : e.loc with
    | true => simp [loc]
    | false => simp [loc, ih]

/-- R68: what the origin record notes of the position of its entry in the queue, `loc` telling whether its path is LOCAL. -/
def Origin.told (c : Origin) (loc : Bool) (q : List ClaimEntry) : Origin :=
  { c with queuePos := if c.state = .queued ∧ loc = true then (localPosition q).or c.queuePos else c.queuePos }

theorem tellPosition_coc (s : State) : (tellPosition s).coc = s.coc.told s.onLocalPath s.claims := by
  unfold tellPosition Origin.told
  by_cases queued : s.coc.state = .queued ∧ s.onLocalPath = true
  · rw [if_pos queued, if_pos queued]
    cases localPosition s.claims with
    | none => rfl
    | some n => rfl
  · rw [if_neg queued, if_neg queued]

theorem tellPosition_form (s : State) : tellPosition s = { s with coc := (tellPosition s).coc } := by
  obtain ⟨n, form⟩ := tellPosition_eq s
  rw [form]

theorem tellPosition_congr {s u : State} (coc : u.coc = s.coc) (claims : u.claims = s.claims) :
    (tellPosition u).coc = (tellPosition s).coc := by
  rw [tellPosition_coc, tellPosition_coc]
  unfold State.onLocalPath
  rw [coc, claims]

/-- R68: a remote head that leaves next does not hide the position told. -/
theorem Origin.told_again (c : Origin) (loc : Bool) {e : ClaimEntry} {rest : List ClaimEntry} (remote : e.loc = false) :
    (c.told loc (e :: rest)).told loc rest = c.told loc rest := by
  unfold Origin.told
  by_cases queued : c.state = .queued ∧ loc = true
  · simp only [if_pos queued]
    cases pos : localPosition rest with
    | some n => rfl
    | none =>
      have none : localPosition (e :: rest) = none := localPositionFrom_none.mpr fun d mem =>
        (List.mem_cons.mp mem).elim (fun h => h ▸ remote) (localPositionFrom_none.mp pos d)
      rw [none]
      rfl
  · simp only [if_neg queued]

/-- R68: the same for the state whose queue loses two heads. -/
theorem tellPosition_again {s u : State} {e : ClaimEntry} {rest : List ClaimEntry} (remote : e.loc = false)
    (coc : u.coc = (tellPosition { s with claims := e :: rest }).coc) (claims : u.claims = rest) :
    (tellPosition u).coc = (tellPosition { s with claims := rest }).coc := by
  have path : u.onLocalPath = s.onLocalPath := by
    unfold State.onLocalPath; rw [coc, tellPosition_coc]; rfl
  have told : u.coc = s.coc.told s.onLocalPath (e :: rest) := coc.trans (tellPosition_coc _)
  rw [tellPosition_coc u, path, claims, told, Origin.told_again _ _ remote]
  exact (tellPosition_coc { s with claims := rest }).symm

/-! ## Entries that leave without a service (R71, R72) -/

section
variable {s : State} {o : Station} {tag : Tag} {e : ClaimEntry}

theorem State.queued_of_claimOf (entry : s.claimOf o tag = some e) : s.queued o tag = true :=
  List.any_eq_true.mpr
    ⟨e, List.mem_of_find?_eq_some entry, List.find?_some (p := fun x : ClaimEntry => x.names o tag) (by exact entry)⟩

/-- R68: no position is told to an idle record. -/
theorem tellPosition_idle (idle : s.coc.state = .idle) : tellPosition s = s := by
  unfold tellPosition
  rw [if_neg (by rw [idle]; simp)]

/-- R71, R72: an entry leaves while no module is grantable and the origin record idle. -/
theorem removeAndServe_left {answer : State → State} (idle : s.coc.state = .idle)
    (none : chooseModule (answer { s with claims := s.claims.filter fun x => !x.names o tag }) = none) :
    removeAndServe o tag answer s = answer { s with claims := s.claims.filter fun x => !x.names o tag } := by
  have gone : removeClaim o tag s = { s with claims := s.claims.filter fun x => !x.names o tag } := tellPosition_idle idle
  unfold removeAndServe
  dsimp only
  rw [gone]
  split
  · exact serveQueue_none _ none
  · rfl

/-- R72: the RELEASE of a waiting claim takes its entry out of the queue. -/
theorem arbiterRelease_queued {f : Rx} (target : f.target ≠ 0) (sender : f.sender ≠ 0)
    (slot : s.carriageOf f.sender.toNat (octetAt f.payload 0) = none)
    (queued : s.queued f.sender.toNat (octetAt f.payload 0) = true) :
    arbiterRelease f s = removeAndServe f.sender.toNat (octetAt f.payload 0) id s := by
  have addressed : unaddressed f = false := Bool.or_eq_false_iff.mpr ⟨beq_false_of_ne target, beq_false_of_ne sender⟩
  unfold arbiterRelease
  rw [addressed, slot]
  dsimp only
  rw [queued]
  rfl

/-- R70: a waiting claim is told its position again. -/
theorem refreshWait_due {w : Time} (entry : s.claimOf o tag = some e) (remote : e.loc = false) (last : e.lastWait = some w)
    (due : w + ms 5000 ≤ s.now) :
    refreshWait o tag s =
      handOver (waitFrame o tag (positionOf s.claims o tag))
        (updClaim o tag (fun x => { x with lastWait := some s.now }) s) := by
  unfold refreshWait
  rw [entry]
  dsimp only
  rw [last]
  exact if_pos ⟨remote, decide_eq_true due⟩

/-- R71: a remote claim expires. -/
theorem claimExpires_remote (entry : s.claimOf o tag = some e) (remote : e.loc = false) (due : e.expiresAt ≤ s.now) :
    claimExpires o tag s = removeAndServe o tag (handOver (refuseFrame o tag .expired)) s := by
  unfold claimExpires
  rw [entry]
  dsimp only
  rw [if_pos due, remote]
  rfl

/-- R171: RELEASE(RESTART) to an idle origin record is the arbiter's alone. -/
theorem deliverRelease_restart {f : Rx} (length : f.payload.length = 2) (restart : octAt f.payload 1 = 7)
    (idle : s.coc.state = .idle) : deliverRelease f s = arbiterRelease f s := by
  have other (o : Station) (tag : Tag) : s.belongs o tag = false := by unfold State.belongs; rw [idle]; rfl
  have kept : originRelease .restart f s = s := by
    unfold originRelease
    rw [other]
    split <;> rfl
  unfold deliverRelease
  rw [if_neg (by simpa using length), restart]
  exact congrArg (arbiterRelease f) kept

end

/-! ## A remote head that is granted (R65, R73) -/

/-- R65, R73: the station as its remote head has been granted a module and a lane. -/
def State.served (s : State) (m : Mod) (k : Lane) (e : ClaimEntry) (rest : List ClaimEntry) (mask : LaneMask) (x : LaneEntry)
    (y : Engine) (n : BitVec 16) : State :=
  { s with
    claims := rest, coc := (tellPosition { s with claims := rest }).coc,
    carriages := s.carriages.set m (some ((newCarriage e.origin e.tag .peer (some mask)).grantedLane k s.now)),
    modules := s.modules.set m { s.mod m with link := true, pendingOrder := none }, lanes := s.lanes.set k x,
    engines := s.engines.set (engineOf (.carriage m)) y, band := (handOver (grantFrame e.origin e.tag k m false) s).band,
    counters := { s.counters with framesDropped := n, callsGranted := satInc s.counters.callsGranted } }

section
variable {s : State} {m : Mod} {k : Lane} {e : ClaimEntry} {rest : List ClaimEntry} {mask : LaneMask} {x : LaneEntry}
  {y : Engine} {n : BitVec 16}

/-- R59: with the module that was granted, none is grantable. -/
theorem chooseModule_granted {u : State} {r : Module} (others : ∀ n, n ≠ m → (s.mod n).grantable = false)
    (set : u.modules = s.modules.set m r) (not : r.grantable = false) : chooseModule u = none := by
  refine chooseModule_none fun j => ?_
  unfold State.mod
  rw [set]
  by_cases same : j = m
  · subst same; rw [PerMod.get_set_self]; exact not
  · rw [PerMod.get_set_ne _ _ _ _ same]; exact others j same

/-- R65, R73: the service grants the remote head, and stops. -/
theorem serve_served (claims : s.claims = e :: rest) (remote : e.loc = false) (named : e.mask = some mask)
    (chosen : chooseModule s = some m) (others : ∀ n, n ≠ m → (s.mod n).grantable = false)
    (state : (s.mod m).state ≠ .refreshing) (lane : chooseLane mask s = some k) :
    ∃ x y n, serve s = s.served m k e rest mask x y n ∧ GrantedLane m k (seedOf e.origin e.tag.toNat) s.now x y := by
  have told := tellPosition_form { s with claims := rest }
  obtain ⟨x, y, granted, given⟩ := grantRemote_eq
    (s := { s with claims := rest, coc := (tellPosition { s with claims := rest }).coc }) k e.origin e.tag mask state
  have granted' := (congrArg (grantRemote m k e.origin e.tag mask) told).trans granted
  obtain ⟨n, handed⟩ := handOver_into (grantFrame e.origin e.tag k m false) (s := s)
    (u := { s with
            claims := rest, coc := (tellPosition { s with claims := rest }).coc,
            modules := s.modules.set m { s.mod m with link := true, pendingOrder := none }, lanes := s.lanes.set k x,
            carriages := s.carriages.set m (some ((newCarriage e.origin e.tag .peer (some mask)).grantedLane k s.now)),
            engines := s.engines.set (engineOf (.carriage m)) y }) rfl rfl
  have form : grantRemote m k e.origin e.tag mask (tellPosition { s with claims := rest }) = s.served m k e rest mask x y n :=
    granted'.trans (congrArg countGrant handed)
  refine ⟨x, y, n, (serve_remote claims remote named chosen lane ?_).trans form, given⟩
  rw [form]
  exact chooseModule_granted others rfl (Module.grantable_of_link rfl)

/-- R113: a service with one grant frees no module. -/
theorem noting_served {f : State → State} (done : f s = s.served m k e rest mask x y n) :
    noting f s = s.served m k e rest mask x y n := by
  unfold noting
  rw [done, noteFreed_eq, freedNotices_set (m := m) rfl fun _ => Module.grantable_of_link rfl, List.append_nil]

/-- R36: what waits for a candidate is not the record whose position was told. -/
theorem waits_served : (s.served m k e rest mask x y n).waitsForCandidate = s.waitsForCandidate := by
  have told : (s.served m k e rest mask x y n).coc = s.coc.told s.onLocalPath rest := tellPosition_coc { s with claims := rest }
  unfold State.waitsForCandidate
  rw [told]
  rfl

/-- R73, R113, R122: a notice that serves the queue, once. -/
theorem handleNotice_served {notice : Notice} (quiet : notice.quiet = true) (named : notice ≠ .newEntry)
    (still : s.waitsForCandidate = false) (claims : s.claims = e :: rest) (remote : e.loc = false)
    (chosen : chooseModule s = some m) (done : serve s = s.served m k e rest mask x y n) :
    handleNotice notice s = s.served m k e rest mask x y n := by
  have calm : noting wakeOrigin (s.served m k e rest mask x y n) = s.served m k e rest mask x y n :=
    noting_id (wakeOrigin_calm (waits_served.trans still))
  have onLane : serveOnLane s = serve s := by
    unfold serveOnLane
    rw [claims]
    dsimp only
    rw [remote, chosen]
    rfl
  cases notice with
  | grantable j => exact (congrArg (noting wakeOrigin) (noting_served done)).trans calm
  | laneFree l => exact (congrArg (noting wakeOrigin) (noting_served (onLane.trans done))).trans calm
  | newEntry => exact absurd rfl named
  | localEnd r => cases quiet
  | localRefused => cases quiet

end

/-- A single notice is drained. -/
theorem drain_one {notice : Notice} {s u v : State} (form : u = { s with notices := [notice] })
    (handled : handleNotice notice { s with notices := [] } = v) (notices : v.notices = []) : drain noticeFuel u = v := by
  subst form
  exact (congrArg (drain 63) handled).trans (drain_nil _ notices)

/-! ## The event that serves the head -/

/-- R65, R73: the remote claim at the head, granted in an event at `t` that left the band `b`, the lanes `lanes` and the module
`r` to the service. -/
def State.grantsHead (s : State) (t : Time) (m : Mod) (k : Lane) (e : ClaimEntry) (rest : List ClaimEntry) (mask : LaneMask)
    (b : Band) (lanes : PerLane LaneEntry) (r : Module) (u : State) : Prop :=
  u = { startEvent t s with
        claims := rest, coc := (tellPosition { s with claims := rest }).coc, carriages := s.carriages.set m (u.car m),
        modules := s.modules.set m { r with link := true, pendingOrder := none }, lanes := lanes.set k (u.lane k),
        engines := s.engines.set (engineOf (.carriage m)) (u.engine (engineOf (.carriage m))),
        band := u.band, counters := u.counters, sched := u.sched } ∧
    u.car m = some
      { newCarriage e.origin e.tag .peer (some mask) with
        lane := some k, connectDeadline := some (max s.now t + ms 1000) } ∧
    (u.lane k).occupancy = .own ∧ (u.lane k).owner = some (.carriage m) ∧
    (u.engine (engineOf (.carriage m))).generator = .running ∧
    (u.engine (engineOf (.carriage m))).genSeed = seedOf e.origin e.tag.toNat ∧
    u.counters.callsGranted = satInc s.counters.callsGranted ∧
    u.band = (handOver (grantFrame e.origin e.tag k m false) { s with band := b }).band

/-- What an event at `t` leaves to the service: the queue, the origin record with its note of the position, the band, the
lanes and module `m`. -/
def State.facing (s : State) (t : Time) (q : List ClaimEntry) (c : Origin) (b : Band) (lanes : PerLane LaneEntry) (m : Mod)
    (r : Module) : State :=
  { startEvent t s with claims := q, coc := c, band := b, lanes := lanes, modules := s.modules.set m r }

section
variable {s : State} {t : Time} {m : Mod} {k : Lane} {e : ClaimEntry} {rest : List ClaimEntry} {mask : LaneMask}
  {c : Origin} {b : Band} {lanes : PerLane LaneEntry} {r : Module}

theorem facing_mod (q : List ClaimEntry) : (s.facing t q c b lanes m r).mod m = r := PerMod.get_set_self _ _ _

theorem facing_others (others : ∀ n, n ≠ m → (s.mod n).grantable = false) (q : List ClaimEntry) :
    ∀ n, n ≠ m → ((s.facing t q c b lanes m r).mod n).grantable = false := fun n other =>
  (congrArg Module.grantable (PerMod.get_set_ne _ _ _ _ other)).trans (others n other)

/-- R65, R73: the state served is the grant that is told of the head. -/
theorem grantsHead_served {x : LaneEntry} {y : Engine} {n : BitVec 16} {q : List ClaimEntry}
    (told : (tellPosition (s.facing t rest c b lanes m r)).coc = (tellPosition { s with claims := rest }).coc)
    (given : GrantedLane m k (seedOf e.origin e.tag.toNat) (max s.now t) x y) (z : OfferSchedule) :
    s.grantsHead t m k e rest mask b lanes r
      (((s.facing t q c b lanes m r).served m k e rest mask x y n).updSched fun _ => z) := by
  refine ⟨?_, PerMod.get_set_self _ _ _, (congrArg LaneEntry.occupancy (PerLane.get_set_self _ _ _)).trans given.occupancy,
    (congrArg LaneEntry.owner (PerLane.get_set_self _ _ _)).trans given.owner,
    (congrArg Engine.generator (PerEngine.get_set_self _ _ _)).trans given.engine.generator,
    (congrArg Engine.genSeed (PerEngine.get_set_self _ _ _)).trans given.engine.genSeed, rfl,
    handOver_band_congr _ rfl rfl⟩
  rw [← told, State.served, facing_mod]
  simp only [State.updSched, State.car, State.lane, State.engine, State.facing, PerMod.set_set, PerMod.get_set_self,
    PerLane.get_set_self, PerEngine.get_set_self, startEvent]

/-- R4, R10: the event ends with the service, and the builder compares. -/
theorem offerSync_served {x : LaneEntry} {y : Engine} {n : BitVec 16} {q : List ClaimEntry} (dup : b.dupFault = s.band.dupFault) :
    ∃ z, offerSync (startEvent t s) ((s.facing t q c b lanes m r).served m k e rest mask x y n) =
      ((s.facing t q c b lanes m r).served m k e rest mask x y n).updSched fun _ => z :=
  ⟨_, offerSync_form (offeringFlag_congr rfl rfl ((handOver_dupFault _ _).trans dup))⟩

/-- R73: a notice of a free lane or a grantable module serves the remote head. -/
theorem event_serves {op : State → State} {notice : Notice} (reset : s.inReset = false)
    (run : noting op (startEvent t s) = { s.facing t (e :: rest) c b lanes m r with notices := [notice] })
    (told : (tellPosition (s.facing t rest c b lanes m r)).coc = (tellPosition { s with claims := rest }).coc)
    (dup : b.dupFault = s.band.dupFault) (quiet : notice.quiet = true) (named : notice ≠ .newEntry)
    (still : (s.facing t (e :: rest) c b lanes m r).waitsForCandidate = false) (remote : e.loc = false)
    (mask' : e.mask = some mask) (chosen : chooseModule (s.facing t (e :: rest) c b lanes m r) = some m)
    (others : ∀ n, n ≠ m → (s.mod n).grantable = false) (state : r.state ≠ .refreshing)
    (lane : chooseLane mask (s.facing t (e :: rest) c b lanes m r) = some k) :
    ∃ u, event t op s = u ∧ s.grantsHead t m k e rest mask b lanes r u := by
  obtain ⟨x, y, n, done, given⟩ := serve_served rfl remote mask' chosen (facing_others others _)
    (by rw [facing_mod]; exact state) lane
  have drained := drain_one run (handleNotice_served quiet named still rfl remote chosen done) rfl
  obtain ⟨z, synced⟩ := offerSync_served (x := x) (y := y) (n := n) dup
  exact ⟨_, (event_eq t op s reset).trans ((congrArg _ drained).trans synced), grantsHead_served told given z⟩

end

end Sys2Proof.Machine

/-! # When the queue is served (04, 4.7) -/

namespace Sys2Proof.Machine

section
variable {s : State} {t : Time} {m : Mod} {k l : Lane} {e gone : ClaimEntry} {rest : List ClaimEntry} {mask : LaneMask}

/-- A module as it stands is faced as it stands. -/
theorem facing_lanes (claims : s.claims = e :: rest) (lanes : PerLane LaneEntry) :
    s.facing t (e :: rest) s.coc s.band lanes m (s.mod m) = { startEvent t s with lanes := lanes } := by
  unfold State.facing State.mod
  rw [PerMod.set_get_self, ← claims]
  rfl

theorem chooseModule_facing {c : Origin} {b : Band} {lanes : PerLane LaneEntry} {q : List ClaimEntry} :
    chooseModule (s.facing t q c b lanes m (s.mod m)) = chooseModule s := by
  unfold chooseModule State.facing State.mod
  rw [PerMod.set_get_self]

/-- R122: 300 ms of quiet make a lane free for choosing, and give its notice. -/
theorem laneTurnsFree_notice {q : Time} (busy : (s.lane l).occupancy = .busy) (owner : (s.lane l).owner = none)
    (quarantine : (s.lane l).quarantineUntil = none) (quiet : (s.lane l).quietSince = some q) (due : q + ms 300 ≤ s.now) :
    laneTurnsFree l s =
      { s with lanes := s.lanes.set l { s.lane l with occupancy := .free }, notices := s.notices ++ [.laneFree l] } := by
  have free : (State.lane { s with lanes := s.lanes.set l { s.lane l with occupancy := .free } } l).freeForChoosing = true := by
    unfold State.lane LaneEntry.freeForChoosing
    rw [PerLane.get_set_self]
    dsimp only
    rw [show (s.lanes.get l).quarantineUntil = none from quarantine, show (s.lanes.get l).owner = none from owner]
    rfl
  have due' : s.due ((s.lane l).quietSince.map (· + laneQuiet)) = true := by rw [quiet]; exact decide_eq_true due
  unfold laneTurnsFree
  dsimp only
  rw [if_pos ⟨busy, due'⟩]
  exact if_pos free

/-- R113: an operation that makes no module grantable gives no notice of one. -/
theorem noting_unfreed {op : State → State} {u : State} (run : op s = u) (freed : freedNotices s u = []) : noting op s = u := by
  unfold noting
  rw [run, noteFreed_eq, freed, List.append_nil]

/-- R73, R122: a lane that comes free serves the remote head. -/
theorem laneFree_serves {q : Time} (reset : s.inReset = false) (still : s.waitsForCandidate = false)
    (others : ∀ n, n ≠ m → (s.mod n).grantable = false) (claims : s.claims = e :: rest) (remote : e.loc = false)
    (mask' : e.mask = some mask) (chosen : chooseModule s = some m) (ready : (s.mod m).state = .ready)
    (busy : (s.lane l).occupancy = .busy) (owner : (s.lane l).owner = none) (quarantine : (s.lane l).quarantineUntil = none)
    (quiet : (s.lane l).quietSince = some q) (due : q + ms 300 ≤ max s.now t)
    (lane : chooseLane mask { s with lanes := s.lanes.set l { s.lane l with occupancy := .free } } = some k) :
    ∃ u, exec (.laneFree t l) s = .next u ∧
      s.grantsHead t m k e rest mask s.band (s.lanes.set l { s.lane l with occupancy := .free }) (s.mod m) u := by
  have free := laneTurnsFree_notice (s := startEvent t s) busy owner quarantine quiet due
  have run : noting (laneTurnsFree l) (startEvent t s) =
      { s.facing t (e :: rest) s.coc s.band (s.lanes.set l { s.lane l with occupancy := .free }) m (s.mod m) with
        notices := [.laneFree l] } := by
    rw [facing_lanes claims]
    exact noting_unfreed free (freedNotices_of_modules rfl)
  obtain ⟨u, done, granted⟩ := event_serves reset run (tellPosition_congr rfl rfl) rfl rfl (by simp) still remote mask'
    (chooseModule_facing.trans chosen) others (ne_of_eq_of_ne ready (by decide)) lane
  exact ⟨u, congrArg Host.Outcome.next done, granted⟩

/-- R72, R171: the RELEASE of a waiting claim, ABANDON or LATE, or RESTART while the origin record is idle, removes its entry. -/
theorem receive_waitingRelease {f : Rx} (heard : s.hears f) (length : f.payload.length = 2)
    (reason : octAt f.payload 1 = 5 ∨ octAt f.payload 1 = 6 ∨ octAt f.payload 1 = 7 ∧ s.coc.state = .idle)
    (slot : s.carriageOf f.sender.toNat (octetAt f.payload 0) = none)
    (queued : s.queued f.sender.toNat (octetAt f.payload 0) = true) :
    receive 6 f s = removeAndServe f.sender.toNat (octetAt f.payload 0) id (hunt s) := by
  have delivered : deliverRelease f (hunt s) = arbiterRelease f (hunt s) := by
    have plain (arbiter : octAt f.payload 1 = 5 ∨ octAt f.payload 1 = 6) : deliverRelease f (hunt s) = arbiterRelease f (hunt s) :=
      (deliverRelease_arbiter (.inr arbiter)).trans (if_neg (by simpa using length))
    rcases reason with late | abandon | ⟨restart, idle⟩
    · exact plain (.inl late)
    · exact plain (.inr abandon)
    · exact deliverRelease_restart length restart idle
  have read := (receive_hears 6 heard rfl).trans delivered
  obtain ⟨target, _, sender, _⟩ := heard
  exact read.trans (arbiterRelease_queued target sender slot queued)

/-- R72, R73: the head leaves by its origin's RELEASE, and the new head is served. -/
theorem release_serves {f : Rx} (reset : s.inReset = false)
    (others : ∀ n, n ≠ m → (s.mod n).grantable = false) (heard : s.hears f) (length : f.payload.length = 2)
    (reason : octAt f.payload 1 = 5 ∨ octAt f.payload 1 = 6)
    (slot : s.carriageOf f.sender.toNat (octetAt f.payload 0) = none) (claims : s.claims = gone :: e :: rest)
    (names : gone.names f.sender.toNat (octetAt f.payload 0) = true)
    (apart : ∀ x ∈ e :: rest, x.names f.sender.toNat (octetAt f.payload 0) = false) (remote : e.loc = false)
    (mask' : e.mask = some mask) (chosen : chooseModule s = some m) (ready : (s.mod m).state = .ready)
    (lane : chooseLane mask s = some k) :
    ∃ u, exec (.releaseFromOrigin t f) s = .next u ∧ s.grantsHead t m k e rest mask (hunt s).band s.lanes (s.mod m) u := by
  have queued : s.queued f.sender.toNat (octetAt f.payload 0) = true := by
    unfold State.queued; rw [claims, List.any_cons, names]; rfl
  have kept : s.claims.filter (fun x => !x.names f.sender.toNat (octetAt f.payload 0)) = e :: rest := by
    rw [claims, List.filter_cons_of_neg (by rw [names]; decide), List.filter_eq_self]
    exact fun x mem => by rw [apart x mem]; rfl
  have coc : (tellPosition { hunt (startEvent t s) with claims := e :: rest }).coc = s.coc.told s.onLocalPath (e :: rest) :=
    tellPosition_coc _
  have left : removeClaim f.sender.toNat (octetAt f.payload 0) (hunt (startEvent t s)) =
      s.facing t (e :: rest) (s.coc.told s.onLocalPath (e :: rest)) (hunt s).band s.lanes m (s.mod m) := by
    unfold removeClaim keepClaims
    rw [show (hunt (startEvent t s)).claims = s.claims from rfl, kept, tellPosition_form, coc]
    unfold State.facing State.mod
    rw [PerMod.set_get_self]
    rfl
  obtain ⟨x, y, n, done, given⟩ := serve_served
    (s := s.facing t (e :: rest) (s.coc.told s.onLocalPath (e :: rest)) (hunt s).band s.lanes m (s.mod m)) (k := k)
    rfl remote mask' (chooseModule_facing.trans chosen) (facing_others others _)
    (by rw [facing_mod]; exact ne_of_eq_of_ne ready (by decide)) lane
  have head : isHead f.sender.toNat (octetAt f.payload 0) (hunt (startEvent t s)) = true := by
    unfold isHead; rw [show (hunt (startEvent t s)).claims = s.claims from rfl, claims]; exact names
  have served : removeAndServe f.sender.toNat (octetAt f.payload 0) id (hunt (startEvent t s)) =
      (s.facing t (e :: rest) (s.coc.told s.onLocalPath (e :: rest)) (hunt s).band s.lanes m (s.mod m)).served m k e rest mask
        x y n := by
    unfold removeAndServe
    dsimp only
    rw [head, if_pos rfl, left]
    exact done
  have read := (receive_waitingRelease (s := startEvent t s) heard length (reason.imp_right .inl) slot queued).trans served
  obtain ⟨z, synced⟩ := offerSync_served (s := s) (t := t) (c := s.coc.told s.onLocalPath (e :: rest)) (b := (hunt s).band)
    (lanes := s.lanes) (m := m) (r := s.mod m) (k := k) (e := e) (rest := rest) (mask := mask) (x := x) (y := y) (n := n)
    (q := e :: rest) rfl
  refine ⟨_, congrArg Host.Outcome.next ((event_sync reset read rfl ?_).trans synced), grantsHead_served ?_ given z⟩
  · exact freedNotices_set (m := m) (r := { s.mod m with link := true, pendingOrder := none })
      (by rw [State.served, facing_mod, State.facing]; simp only [PerMod.set_set]; rfl) fun _ => Module.grantable_of_link rfl
  · refine tellPosition_again remote ?_ rfl
    exact (tellPosition_coc { s with claims := e :: rest }).symm

/-! ## A module that becomes grantable (R113) -/

theorem hasUsable_of_codeUsable {table : List Net} {code : Code} (usable : codeUsable table code = true) :
    hasUsable table = true := by
  unfold codeUsable netOf at usable
  unfold hasUsable
  cases found : table.find? fun n => n.code == code with
  | none => rw [found] at usable; cases usable
  | some n => rw [found] at usable; exact List.any_eq_true.mpr ⟨n, List.mem_of_find?_eq_some found, usable⟩

/-- A usable network stands for its code among the usable ones too. -/
theorem netOf_filter_usable {table : List Net} {code : Code} {n : Net} (found : netOf table code = some n)
    (usable : n.usable = true) : netOf (table.filter Net.usable) code = some n := by
  unfold netOf at found ⊢
  rw [List.find?_filter]
  induction table with
  | nil => cases found
  | cons x rest ih =>
    rw [List.find?_cons] at found ⊢
    cases named : x.code == code with
    | true =>
      rw [named] at found
      cases found
      rw [usable]
      rfl
    | false =>
      rw [named] at found
      simpa using ih found

/-- R115: the selected network is dialled when it is usable and none is better. -/
theorem dialChoice_selected {table : List Net} {code : Code} (usable : codeUsable table code = true)
    (best : betterNet table code (qualityOf table code) = none) : dialChoice table (some code) [] = .dial code := by
  unfold codeUsable at usable
  unfold qualityOf at best
  cases found : netOf table code with
  | none => rw [found] at usable; cases usable
  | some n =>
    rw [found] at usable best
    have kept := netOf_filter_usable found usable
    have untried : table.filter (fun n => n.usable && !([] : List Code).contains n.code) = table.filter Net.usable := by simp
    have none : (table.filter Net.usable).any (fun x => x.code != code && decide (n.quality + 6 ≤ x.quality)) = false := by
      simp only [betterNet, Option.map_eq_none_iff, List.find?_eq_none] at best
      rw [List.any_filter]
      simpa [List.any_eq_false, Bool.and_assoc] using best
    unfold dialChoice
    dsimp only
    rw [untried]
    cases cand : table.filter Net.usable with
    | nil => rw [cand] at kept; cases kept
    | cons first tail =>
      rw [cand] at kept none
      dsimp only
      rw [kept]
      dsimp only
      rw [none]
      rfl

/-- R59: the only grantable module is chosen. -/
theorem chooseModule_only {u : State} (grantable : (u.mod m).grantable = true)
    (others : ∀ n, n ≠ m → (u.mod n).grantable = false) : chooseModule u = some m := by
  unfold chooseModule
  cases m with
  | a =>
    have b : u.modules.b.grantable = false := others .b (by decide)
    rw [show u.modules.a.grantable = true from grantable, b]
  | b =>
    have a : u.modules.a.grantable = false := others .a (by decide)
    rw [show u.modules.b.grantable = true from grantable, a]

/-- R113: one module became grantable. -/
theorem freedNotices_one {s1 : State} {r : Module} (set : s1.modules = s.modules.set m r)
    (before : (s.mod m).grantable = false) (now : r.grantable = true) : freedNotices s s1 = [.grantable m] := by
  have turned : turnsGrantable m s s1 = true := by
    unfold turnsGrantable
    rw [before, State.mod, set, PerMod.get_set_self, now]
    rfl
  have other (n : Mod) (apart : n ≠ m) : turnsGrantable n s s1 = false := by
    unfold turnsGrantable State.mod
    rw [set, PerMod.get_set_ne _ _ _ _ apart]
    simp
  unfold freedNotices
  cases m with
  | a => rw [turned, other .b (by decide)]; rfl
  | b => rw [turned, other .a (by decide)]; rfl

/-- R109, R110: a module as its selection leaves it READY. -/
def Module.selectedReady (r : Module) (code : Code) : Module :=
  { r with timeouts := 0, selected := some code, inFlight := none, state := .ready, rescanDue := none }

/-- What is asked of a module whose selection makes it grantable. -/
structure SelectsReady (r : Module) (code : Code) (o : OrderInFlight) (now : Time) : Prop where
  power : r.power = true
  fitted : r.fitted = true
  state : r.state = .selecting
  flight : r.inFlight = some o
  kind : o.kind = .select
  names : o.code = code
  link : r.link = false
  pending : r.pendingOrder = none
  usable : codeUsable r.table code = true
  best : betterNet r.table code (qualityOf r.table code) = none
  early : ∀ d, r.lastScan = some d → now < d + ms 300000

theorem SelectsReady.grantable {r : Module} {code : Code} {o : OrderInFlight} {now : Time} (h : SelectsReady r code o now) :
    (r.selectedReady code).grantable = true := by
  have link : (r.selectedReady code).link = false := h.link
  have fitted : (r.selectedReady code).fitted = true := h.fitted
  have usable : hasUsable (r.selectedReady code).table = true := hasUsable_of_codeUsable h.usable
  unfold Module.grantable
  rw [link, fitted, usable]
  rfl

/-- R113: the module of a SELECTED ok is grantable, and its notice given. -/
theorem selected_notes {code : Code} {o : OrderInFlight} (h : SelectsReady (s.mod m) code o (max s.now t))
    (claims : s.claims = e :: rest) :
    noting (onReport m (selectEnds m code true)) (startEvent t s) =
      { s.facing t (e :: rest) s.coc s.band s.lanes m ((s.mod m).selectedReady code) with notices := [.grantable m] } := by
  have ready := selected_ready (m := m) (s := startEvent t s) (r := { s.mod m with timeouts := 0 }) (out := []) h.power h.state
    h.link h.pending h.flight h.kind (by rw [h.names]; exact h.usable) (by rw [h.names]; exact h.best) h.early
  rw [h.names] at ready
  have run : onReport m (selectEnds m code true) (startEvent t s) =
      (startEvent t s).withMod m ((s.mod m).selectedReady code) [] := onReport_start h.power ready
  have before : (s.mod m).grantable = false :=
    Module.grantable_of_state (ne_of_eq_of_ne h.state (by decide)) (ne_of_eq_of_ne h.state (by decide))
  unfold noting
  rw [run, noteFreed_eq, freedNotices_one (s := startEvent t s) (m := m) (r := (s.mod m).selectedReady code) rfl before h.grantable]
  unfold State.facing State.withMod
  rw [← claims]
  rfl

/-- R73, R113: a module that becomes grantable serves the remote head. -/
theorem selected_servesRemote {code : BitVec 24} {o : OrderInFlight} (h : SelectsReady (s.mod m) code.toNat o (max s.now t))
    (reset : s.inReset = false) (still : s.waitsForCandidate = false) (others : ∀ n, n ≠ m → (s.mod n).grantable = false)
    (claims : s.claims = e :: rest) (remote : e.loc = false) (mask' : e.mask = some mask) (lane : chooseLane mask s = some k) :
    ∃ u, exec (.selected t m code 0) s = .next u ∧
      s.grantsHead t m k e rest mask s.band s.lanes ((s.mod m).selectedReady code.toNat) u := by
  obtain ⟨u, done, granted⟩ := event_serves reset (selected_notes h claims) (tellPosition_congr rfl rfl) rfl rfl (by simp) still
    remote mask' (chooseModule_only (by rw [facing_mod]; exact h.grantable) (facing_others others _)) others
    (show ModuleState.ready ≠ .refreshing by decide) lane
  exact ⟨u, congrArg Host.Outcome.next done, granted⟩

theorem path_of_onLocalPath (loc : s.onLocalPath = true) : ∃ p, s.coc.path = some p ∧ p.kind = .loc := by
  unfold State.onLocalPath at loc
  cases path : s.coc.path with
  | none => rw [path] at loc; cases loc
  | some p => rw [path] at loc; exact ⟨p, rfl, by simpa using loc⟩

/-- R37, R65, R73, R115: the service grants the local head, whose call dials on the network selected, and stops. -/
theorem serve_dials {code : Code} {p : Path} (claims : s.claims = e :: rest) (loc : e.loc = true) (path : s.coc.path = some p)
    (kind : p.kind = .loc) (chosen : chooseModule s = some m) (others : ∀ n, n ≠ m → (s.mod n).grantable = false)
    (state : (s.mod m).state ≠ .refreshing) (flight : (s.mod m).inFlight = none) (selected : (s.mod m).selected = some code)
    (usable : codeUsable (s.mod m).table code = true)
    (best : betterNet (s.mod m).table code (qualityOf (s.mod m).table code) = none) :
    ∃ w, serve s =
      { State.grantsLocal { s with claims := rest, coc := (tellPosition { s with claims := rest }).coc } m e.tag
          (Module.dials { s.mod m with link := true, pendingOrder := none } s.now) (s.out ++ [.order m .dial 0]) w with
        coc := ((tellPosition { s with claims := rest }).coc.onModule m).dials code,
        carriages := s.carriages.set m (some ((newCarriage s.own e.tag .loc none).tries code)) } := by
  have told : (tellPosition { s with claims := rest }).coc = s.coc.told s.onLocalPath rest := tellPosition_coc _
  have path' : (tellPosition { s with claims := rest }).coc.path = some p := by rw [told]; exact path
  obtain ⟨w, granted, _⟩ := grantLocal_eq (m := m) e.tag
    (s := { s with claims := rest, coc := (tellPosition { s with claims := rest }).coc }) path' kind (commitModule_ready state)
  have dialled := startAttempt_dials (m := m) (w := w) (tag := e.tag) (out := s.out)
    (s := { s with claims := rest, coc := (tellPosition { s with claims := rest }).coc })
    (r := { s.mod m with link := true, pendingOrder := none }) path' kind flight
    ((congrArg (dialChoice (s.mod m).table · []) selected).trans (dialChoice_selected usable best))
  have form := (congrArg (grantLocal m e.tag) (tellPosition_form { s with claims := rest })).trans (granted.trans dialled)
  refine ⟨w, (serve_local claims loc chosen ?_).trans form⟩
  rw [form]
  exact chooseModule_granted others rfl (Module.grantable_of_link rfl)

/-- R37, R65, R73, R113, R115: what the grant of the local head leaves, the module dialling `code` from `r`. -/
def State.grantsOwn (s : State) (t : Time) (m : Mod) (e : ClaimEntry) (rest : List ClaimEntry) (code : Code) (r : Module)
    (u : State) : Prop :=
  u = { startEvent t s with
        claims := rest, coc := u.coc, lamp := u.lamp, csw := u.csw, sched := u.sched,
        carriages := s.carriages.set m (u.car m), modules := s.modules.set m (u.mod m),
        counters := { s.counters with callsGranted := satInc s.counters.callsGranted },
        out := [.order m .dial 0] } ∧
  u.coc.state = .dialing ∧ u.coc.path = s.coc.path.map (fun p => { p with module := some m }) ∧
  u.coc.stage = some .dialing ∧ u.coc.network = some code ∧ u.coc.searchDeadline = none ∧ u.coc.tag = s.coc.tag ∧
  u.car m = some
    { newCarriage s.own e.tag .loc none with tried := [code], network := some code, lastStage := some .dialing } ∧
  u.mod m =
    { r with
      link := true, pendingOrder := none, state := .dialing, callInProgress := true,
      inFlight := some { kind := .dial, deadline := max s.now t + ms 10000, code := 0 } }

/-- R73, R113: a module that becomes grantable serves the local head. -/
theorem selected_servesLocal {code : BitVec 24} {o : OrderInFlight} (h : SelectsReady (s.mod m) code.toNat o (max s.now t))
    (reset : s.inReset = false) (others : ∀ n, n ≠ m → (s.mod n).grantable = false) (claims : s.claims = e :: rest)
    (loc : e.loc = true) (onLocal : s.onLocalPath = true) :
    ∃ u, exec (.selected t m code 0) s = .next u ∧
      s.grantsOwn t m e rest code.toNat ((s.mod m).selectedReady code.toNat) u := by
  obtain ⟨p, path, kind⟩ := path_of_onLocalPath onLocal
  obtain ⟨w, served⟩ := serve_dials (m := m) (code := code.toNat)
    (s := s.facing t (e :: rest) s.coc s.band s.lanes m ((s.mod m).selectedReady code.toNat)) rfl loc path kind
    (chooseModule_only (by rw [facing_mod]; exact h.grantable) (facing_others others _)) (facing_others others _)
    (by rw [facing_mod]; exact (show ModuleState.ready ≠ .refreshing by decide)) (by rw [facing_mod]; rfl)
    (by rw [facing_mod]; rfl) (by rw [facing_mod]; exact h.usable) (by rw [facing_mod]; exact h.best)
  rw [facing_mod] at served
  have unfreed := noting_unfreed served (freedNotices_set (m := m) rfl fun _ => Module.grantable_of_link rfl)
  have handled := (congrArg (noting wakeOrigin) unfreed).trans (noting_id (wakeOrigin_calm rfl))
  have drained := drain_one (notice := .grantable m) (selected_notes h claims) handled rfl
  have done := (event_eq t (onReport m (selectEnds m code.toNat true)) s reset).trans
    ((congrArg _ drained).trans (offerSync_form (offeringFlag_congr rfl rfl rfl)))
  have coc : (tellPosition (s.facing t rest s.coc s.band s.lanes m ((s.mod m).selectedReady code.toNat))).coc =
      s.coc.told s.onLocalPath rest := tellPosition_coc _
  refine ⟨_, congrArg Host.Outcome.next done, ?_, rfl, ?_, rfl, rfl, rfl, ?_, PerMod.get_set_self _ _ _, PerMod.get_set_self _ _ _⟩
  · simp only [State.grantsLocal, State.facing, State.car, State.mod, PerMod.set_set, PerMod.get_set_self, startEvent]
    rfl
  · exact congrArg (fun c : Origin => c.path.map fun p : Path => { p with module := some m }) coc
  · exact ((congrArg Origin.tag coc).trans rfl :)

end

/-- Settles O40: told again, gone without a service, and served by a free lane, a head that leaves and a module that becomes
grantable. -/
theorem claimsWaitAndLeave : Obligations.ClaimsWaitAndLeave := by
  unfold Obligations.ClaimsWaitAndLeave
  refine ⟨fun t _ o tag e s reset entry remote last due => ?_, fun t s reset none idle => ⟨?_, ?_⟩, ?_⟩
  · exact exec_local (c := .waitRefresh t o tag) rfl reset (refreshWait_due (s := startEvent t s) entry remote last due)
  · intro f heard length slot queued left
    have leaves (reason : octAt f.payload 1 = 5 ∨ octAt f.payload 1 = 6 ∨ octAt f.payload 1 = 7 ∧ s.coc.state = .idle) :
        event t (receive 6 f) s = offerSync (startEvent t s) left :=
      event_noNotice reset ((receive_waitingRelease (s := startEvent t s) heard length reason slot queued).trans
        (removeAndServe_left idle none)) rfl rfl
    exact ⟨fun reason => congrArg Host.Outcome.next (leaves (reason.imp_right .inl)),
      fun reason => congrArg Host.Outcome.next (leaves (.inr (.inr ⟨reason, idle⟩)))⟩
  · intro o tag e entry remote due
    refine congrArg Host.Outcome.next (event_noNotice reset
      ((claimExpires_remote (s := startEvent t s) entry remote due).trans (removeAndServe_left idle ?_))
      (handOver_notices _ _) (handOver_modules _ _))
    unfold chooseModule
    rw [handOver_modules]
    exact none
  · intro t m k e rest mask s reset still others granted
    refine ⟨?_, ?_, ?_⟩
    · intro l q claims remote mask' chosen ready busy owner quarantine quiet due lanes lane
      exact laneFree_serves reset still others claims remote mask' chosen ready busy owner quarantine quiet due lane
    · intro f gone heard length reason slot claims names apart remote mask' chosen ready lane
      exact release_serves reset others heard length reason slot claims names apart remote mask' chosen ready lane
    · intro code o claims power fitted state flight kind named link pending usable best early ready
      have selects : SelectsReady (s.mod m) code.toNat o (max s.now t) :=
        ⟨power, fitted, state, flight, kind, named, link, pending, usable, best, early⟩
      exact ⟨fun remote mask' lane => selected_servesRemote selects reset still others claims remote mask' lane,
        fun loc _ onLocal => selected_servesLocal selects reset others claims loc onLocal⟩

end Sys2Proof.Machine

/-! # The retry ranking (03, 3.3; 04, 4.5) -/

namespace Sys2Proof.Machine

/-! ## The search as it ranks (R35, R36) -/

/-- R36: the record as its no-candidate wait ends: SEEKING, with the moment of the last wake noted. -/
def Origin.woken (c : Origin) (now : Time) : Origin := Origin.seeking { c with wokenAt := some now } now

/-- R36: the station as it ranks at the end of the no-candidate wait. -/
def State.searching (s : State) : State :=
  { s with
    coc := s.coc.woken s.now, lamp := State.lampFor (s.updCoc fun c => { c with wokenAt := some s.now }) .seek }

section
variable {s : State} {r : Time} {c : Candidate}

/-- R36: at the retry time the record that waits enters SEEKING again. -/
theorem retryReached_due (seeking : s.coc.state = .seeking) (retry : s.coc.retryTime = some r) (due : r ≤ s.now) :
    retryReached s = enterSeeking (s.updCoc fun c => { c with wokenAt := some s.now }) := by
  have waits : s.waitsForCandidate = true := by unfold State.waitsForCandidate; rw [seeking, retry]; rfl
  have due' : s.due s.coc.retryTime = true := by rw [retry]; exact decide_eq_true due
  exact if_pos ⟨waits, due'⟩

theorem searching_eq (s : State) : enterSeekingState (s.updCoc fun c => { c with wokenAt := some s.now }) = s.searching :=
  enterSeekingState_eq _

/-- R17: the outcome does not depend on the state of the search. -/
theorem ranking_searching (s : State) : ranking s.searching = ranking s := rfl

/-- R35: a PEER outcome is claimed. -/
theorem retryReached_peer (seeking : s.coc.state = .seeking) (retry : s.coc.retryTime = some r) (due : r ≤ s.now)
    (outcome : ranking s = some c) (peer : c.kind = .peer) (mask : s.laneMask ≠ 0) :
    retryReached s = claimPeer c.station s.searching := by
  rw [retryReached_due seeking retry due]
  unfold enterSeeking
  dsimp only
  rw [searching_eq, ranking_searching, outcome]
  dsimp only
  rw [peer]
  exact if_neg mask

/-- R35: a LOCAL outcome is claimed. -/
theorem retryReached_local (seeking : s.coc.state = .seeking) (retry : s.coc.retryTime = some r) (due : r ≤ s.now)
    (outcome : ranking s = some c) (loc : c.kind = .loc) : retryReached s = claimLocal s.searching := by
  rw [retryReached_due seeking retry due]
  unfold enterSeeking
  dsimp only
  rw [searching_eq, ranking_searching, outcome]
  dsimp only
  rw [loc]

end

/-! ## The local claim (R37, R67) -/

/-- R35: the record as it claims at its own arbiter. -/
def State.claimsHome (s : State) : State :=
  { s with
    coc :=
      { s.coc with
        path := some { kind := .loc, station := s.own, module := none, lane := none }, claimKind := .new, attempts := 0,
        state := .claiming, wokenAt := none },
    lamp := s.lampFor .seek }

/-- R68: the local entry that joins behind remote ones is the last. -/
theorem localPositionFrom_joined {q : List ClaimEntry} {e : ClaimEntry} (remote : ∀ x ∈ q, x.loc = false) (loc : e.loc = true)
    (n : Nat) : localPositionFrom n (q ++ [e]) = some (n + q.length) := by
  induction q generalizing n with
  | nil => simp [localPositionFrom, loc]
  | cons x rest ih =>
    rw [List.cons_append, localPositionFrom, remote x List.mem_cons_self,
      ih (fun y mem => remote y (List.mem_cons_of_mem _ mem)), List.length_cons]
    simp only [Bool.false_eq_true, if_false, Option.some.injEq]
    omega

section
variable {s : State} {m : Mod}

/-- R63, R67: without a claim of the own origin the local claim is answered as it stands. -/
theorem claimLocal_granted (claims : ∀ e ∈ s.claims, e.origin ≠ s.own) (cars : ∀ m x, s.car m = some x → x.origin ≠ s.own)
    (answer : localAnswer s = .granted) (chosen : chooseModule s = some m) :
    claimLocal s = grantLocal m s.coc.tag s.claimsHome := by
  unfold claimLocal
  dsimp only
  rw [clearStale_none (s := enterOrigin .claiming _) (by exact claims) (by exact cars)]
  split
  next =>
    show placeLocal s.coc.tag s.claimsHome = _
    unfold placeLocal
    rw [show localAnswer s.claimsHome = .granted from answer, show chooseModule s.claimsHome = some m from chosen]
  next other => cases answer.symm.trans other
  next other => cases answer.symm.trans other

theorem claimLocal_queued (claims : ∀ e ∈ s.claims, e.origin ≠ s.own) (cars : ∀ m x, s.car m = some x → x.origin ≠ s.own)
    (answer : localAnswer s = .queued) :
    claimLocal s =
      enterOrigin .queued
        ((joinClaims (newEntry s.own s.coc.tag none s) s.claimsHome).updCoc fun c =>
          { c with queuePos := localPosition (s.claims ++ [newEntry s.own s.coc.tag none s]) }) := by
  have placed : placeLocal s.coc.tag s.claimsHome = joinClaims (newEntry s.own s.coc.tag none s) s.claimsHome := by
    unfold placeLocal
    rw [show localAnswer s.claimsHome = .queued from answer]
    rfl
  unfold claimLocal
  dsimp only
  rw [clearStale_none (s := enterOrigin .claiming _) (by exact claims) (by exact cars)]
  split
  next other => cases answer.symm.trans other
  next =>
    exact congrArg (fun u : State => enterOrigin .queued (u.updCoc fun c => { c with queuePos := localPosition u.claims })) placed
  next other => cases answer.symm.trans other

theorem claimLocal_refused {why : RefuseReason} (claims : ∀ e ∈ s.claims, e.origin ≠ s.own)
    (cars : ∀ m x, s.car m = some x → x.origin ≠ s.own) (answer : localAnswer s = .refused why) :
    ∃ c k, claimLocal s = { s with coc := c, lamp := k } ∧ c.state = .seeking ∧ c.path = none ∧
      c.avoid = avoidWith s.coc.avoid s.own s.now ∧ c.retryTime = some (s.now + ms 2000) ∧ c.tag = s.coc.tag := by
  have told : claimLocal s = beginWait (enterSeekingState (localTurnedAway (enterOrigin .claiming
      (s.updCoc fun c =>
        { c with path := some { kind := .loc, station := s.own, module := none, lane := none }, claimKind := .new,
                 attempts := 0 })))) := by
    unfold claimLocal
    dsimp only
    rw [clearStale_none (s := enterOrigin .claiming _) (by exact claims) (by exact cars)]
    split
    next other => cases answer.symm.trans other
    next other => cases answer.symm.trans other
    next => rfl
  rw [enterOrigin_eq, enterSeekingState_eq] at told
  exact ⟨_, _, told, rfl, rfl, rfl, rfl, rfl⟩

/-- R67: the answers of the arbiter. -/
theorem localAnswer_granted (serviceable : s.anyServiceable = true) (claims : s.claims = [])
    (chosen : chooseModule s = some m) : localAnswer s = .granted := by
  unfold localAnswer
  rw [serviceable, claims, chosen]
  rfl

theorem localAnswer_queued (serviceable : s.anyServiceable = true) (waits : s.claims ≠ [] ∨ chooseModule s = none)
    (room : s.claims.length < 6) : localAnswer s = .queued := by
  have busy : (s.claims.isEmpty && (chooseModule s).isSome) = false := by
    rcases waits with some | none
    · rw [List.isEmpty_eq_false_iff.mpr some]; rfl
    · rw [none, Bool.and_comm]; rfl
  unfold localAnswer
  rw [serviceable, busy]
  simp [room]

theorem localAnswer_refused (refused : s.anyServiceable = false ∨ s.claims.length = 6) :
    ∃ why, localAnswer s = .refused why := by
  unfold localAnswer
  cases serviceable : s.anyServiceable with
  | false => exact ⟨.noChannel, rfl⟩
  | true =>
    have full : s.claims.length = 6 := refused.resolve_left (by rw [serviceable]; decide)
    have some : s.claims.isEmpty = false := List.isEmpty_eq_false_iff.mpr (List.ne_nil_of_length_pos (by omega))
    exact ⟨.queueFull, by rw [some, full]; rfl⟩

/-- R114: a module whose refresh scan is in flight is committed with an ABORT. -/
theorem commitModule_scanning (state : (s.mod m).state = .refreshing) (flying : (s.mod m).flying .scan = true) :
    commitModule m s =
      s.withMod m (Module.ordered { s.mod m with link := true, pendingOrder := none } .abort 0 s.now)
        (s.out ++ [.order m .abort 0]) := by
  have scanning (r : Module) (out : List Output) : (s.withMod m r out).mod m = r := State.withMod_mod _ _ _ _
  unfold commitModule
  dsimp only
  rw [State.updMod_eq, scanning, if_pos ⟨state, flying⟩, orderAbort, sendOrder_withMod]

/-- R35: the record as it claims at a peer. -/
def Origin.claims (c : Origin) (st : Station) (now : Time) : Origin :=
  { c with
    path := some { kind := .peer, station := st, module := none, lane := none }, claimKind := .new, attempts := 1,
    wokenAt := none, answerDeadline := some (now + claimAnswerTime), state := .claiming }

/-- R35: the claim at a peer. -/
theorem claimPeer_eq (st : Station) (s : State) :
    ∃ n k, claimPeer st s =
      { s with
        coc := s.coc.claims st s.now, lamp := k, band := (handOver (claimFrame st s.coc.tag .new s.laneMask) s).band,
        counters := { s.counters with framesDropped := n } } ∧ k.requested = .seek := by
  obtain ⟨n, handed⟩ := handOver_into (claimFrame st s.coc.tag .new s.laneMask) (s := s)
    (u := s.updCoc fun c =>
      { c with path := some { kind := .peer, station := st, module := none, lane := none }, claimKind := .new, attempts := 1,
               wokenAt := none, answerDeadline := some (s.now + claimAnswerTime) }) rfl rfl
  exact ⟨n, _, congrArg (enterOrigin .claiming) handed, State.lampFor_requested _ _⟩

/-- R37: the local claim that waits in the queue. -/
theorem enterQueued_eq (e : ClaimEntry) (s : State) :
    ∃ k, enterOrigin .queued
        ((joinClaims e s.claimsHome).updCoc fun c => { c with queuePos := localPosition (s.claims ++ [e]) }) =
      { s with
        claims := s.claims ++ [e],
        coc := { s.claimsHome.coc with queuePos := localPosition (s.claims ++ [e]), state := .queued }, lamp := k } ∧
      k.requested = .seek :=
  ⟨_, enterOrigin_eq _ _, State.lampFor_requested _ _⟩

/-- R65, R115: the local claim as it is granted in an event, and what `granted` asks of the state it leaves. -/
theorem localGrant_leaves {t : Time} {op : State → State} {r : Module} {tag : Tag} {out : List Output}
    {w : Switch} {x : Origin} {y : Carriage} {u : State} (reset : s.inReset = false)
    (base : u = { startEvent t s with coc := u.coc, lamp := u.lamp })
    (run : op (startEvent t s) = { u.grantsLocal m tag r out w with coc := x, carriages := u.carriages.set m (some y) })
    (link : r.link = true) :
    ∃ k z, event t op s =
      { startEvent t s with
        coc := x, lamp := k, csw := w, sched := z, carriages := s.carriages.set m (some y),
        modules := s.modules.set m r, counters := { s.counters with callsGranted := satInc s.counters.callsGranted },
        out := out } ∧ k.requested = .seek := by
  rw [base] at run
  obtain ⟨z, form⟩ := event_syncForm reset run rfl (freedNotices_set (m := m) (r := r) rfl fun _ => Module.grantable_of_link link)
    (offeringFlag_congr rfl rfl rfl)
  exact ⟨_, z, form, State.lampFor_requested _ _⟩

end

/-- Settles O31: no candidate, a peer, and the three answers of the own arbiter. -/
theorem retryRanksAgain : Obligations.RetryRanksAgain := by
  unfold Obligations.RetryRanksAgain
  refine ⟨fun t r s reset seeking retry due alone => ?_, fun t r c s reset seeking retry due outcome peer mask => ?_, ?_⟩
  · have run := (retryReached_due (s := startEvent t s) seeking retry due).trans (enterSeeking_noCandidate alone)
    refine ⟨_, exec_unnoticed (c := .retryTime t) rfl reset run ⟨rfl, rfl, rfl, rfl, rfl, rfl⟩, rfl, rfl, rfl, rfl, rfl, rfl,
      State.lampFor_requested _ _, fun d runs => ?_⟩
    show (match s.coc.searchDeadline with | some d => some d | none => _) = some d
    rw [runs]
  · obtain ⟨n, k, claimed, _⟩ := claimPeer_eq c.station (startEvent t s).searching
    have run := (retryReached_peer (s := startEvent t s) seeking retry due outcome peer mask).trans claimed
    refine ⟨_, exec_unnoticed (c := .retryTime t) rfl reset run ⟨rfl, rfl, rfl, handOver_dupFault _ _, rfl, rfl⟩, rfl, rfl,
      ⟨none, rfl⟩, rfl, rfl, rfl, rfl, rfl, ?_⟩
    exact handOver_band_congr _ rfl rfl
  · intro t r c s reset seeking retry due outcome loc claims cars
    have run := retryReached_local (s := startEvent t s) seeking retry due outcome loc
    refine ⟨fun serviceable waits room remote => ?_, fun refused => ?_, fun m serviceable empty chosen => ?_⟩
    · obtain ⟨k, queued, lamp⟩ := enterQueued_eq (newEntry s.own s.coc.tag none (startEvent t s)) (startEvent t s).searching
      have placed := run.trans ((claimLocal_queued (s := (startEvent t s).searching) claims cars
        (localAnswer_queued (s := s) serviceable waits room)).trans queued)
      obtain ⟨z, form⟩ := event_syncForm reset placed rfl (freedNotices_of_modules rfl) (offeringFlag_congr rfl rfl rfl)
      refine ⟨_, congrArg Host.Outcome.next form, rfl, rfl, ?_, rfl, rfl, rfl, rfl, rfl, lamp⟩
      exact (localPositionFrom_joined remote rfl 1).trans (congrArg some (Nat.add_comm _ _))
    · obtain ⟨why, answer⟩ := localAnswer_refused (s := s) refused
      obtain ⟨x, k, turned, state, path, avoid, retry', tag⟩ :=
        claimLocal_refused (s := (startEvent t s).searching) claims cars answer
      exact ⟨_, exec_unnoticed (c := .retryTime t) rfl reset (run.trans turned) ⟨rfl, rfl, rfl, rfl, rfl, rfl⟩, rfl, state, path,
        avoid, retry', tag⟩
    · have granting := run.trans (claimLocal_granted (s := (startEvent t s).searching) claims cars
        (localAnswer_granted (s := s) serviceable empty chosen) chosen)
      intro granted
      refine ⟨fun code ready flight => ?_, fun refreshing flying => ?_⟩
      · obtain ⟨w, given, speaker, module⟩ := grantLocal_eq (m := m) (s := (startEvent t s).searching.claimsHome) s.coc.tag rfl rfl
          (commitModule_ready (ne_of_eq_of_ne ready (by decide)))
        refine ⟨fun dial => ?_, fun select => ?_⟩
        · have dialled := granting.trans (given.trans (startAttempt_dials rfl rfl flight dial))
          obtain ⟨k, z, form, lamp⟩ := localGrant_leaves (u := (startEvent t s).searching.claimsHome) reset rfl dialled rfl
          exact ⟨_, congrArg Host.Outcome.next form, by rw [State.car, PerMod.get_set_self]; rfl, rfl, rfl, rfl, rfl, rfl, rfl, lamp,
            PerMod.get_set_self _ _ _, speaker, module⟩
        · have selected := granting.trans (given.trans (startAttempt_selects rfl rfl flight select))
          obtain ⟨k, z, form, lamp⟩ := localGrant_leaves (u := (startEvent t s).searching.claimsHome) reset rfl selected rfl
          exact ⟨_, congrArg Host.Outcome.next form, by rw [State.car, PerMod.get_set_self]; rfl, rfl, rfl, rfl, rfl, rfl, rfl, lamp,
            PerMod.get_set_self _ _ _, speaker, module⟩
      · obtain ⟨w, given, speaker, module⟩ := grantLocal_eq (m := m) (s := (startEvent t s).searching.claimsHome) s.coc.tag rfl rfl
          (commitModule_scanning refreshing flying)
        have pending := granting.trans (given.trans (startAttempt_pending rfl))
        obtain ⟨k, z, form, lamp⟩ := localGrant_leaves (u := (startEvent t s).searching.claimsHome) (tag := s.coc.tag) reset rfl
          pending rfl
        exact ⟨_, congrArg Host.Outcome.next form, by rw [State.car, PerMod.get_set_self]; rfl, rfl, rfl, rfl, rfl, rfl, rfl, lamp,
          PerMod.get_set_self _ _ _, speaker, module⟩

end Sys2Proof.Machine

/-! # The identity burst (08, 8.4) -/

namespace Sys2Proof.Machine

/-! ## The tone of a digit (R151, log 45) -/

/-- The sine repeats after its 160 parts. -/
theorem sineLevel_mod (k : Nat) (up : Bool) : sineLevel (k % 160) up = sineLevel k up := by
  unfold sineLevel
  rw [Nat.mod_mod_of_dvd k (by decide : 80 ∣ 160), Nat.mod_mod]

/-- The second half cycle is the first one, negative. -/
theorem sineLevel_half (k : Nat) (up : Bool) : sineLevel (k + 80) up = -sineLevel k up := by
  have sign (x : Nat) :
      (if (k + 80) % 160 < 80 then (x : Int) else -x) = -(if k % 160 < 80 then (x : Int) else -x) := by
    by_cases first : k % 160 < 80
    · rw [if_pos first, if_neg (by omega)]
    · rw [if_neg first, if_pos (by omega), neg_neg]
  unfold sineLevel
  dsimp only
  rw [Nat.add_mod_right k 80, sign]

/-- The first half cycle: its peak, and its squares with those of a quarter of a cycle later, up to the rounding of each. -/
theorem sineLevel_firstHalf : ∀ k < 80, ∀ up,
    (sineLevel k up).natAbs ≤ 8192 ∧
      ∀ up', ((sineLevel k up) ^ 2 + (sineLevel (k + 40) up') ^ 2 - 8192 ^ 2).natAbs ≤ 24000 := by
  decide

/-- A part of the first half cycle has the level of any part, or its negative. -/
theorem sineLevel_fold (k : Nat) :
    ∃ j < 80, (∀ up, sineLevel k up = sineLevel j up ∧ sineLevel (k + 40) up = sineLevel (j + 40) up) ∨
      ∀ up, sineLevel k up = -sineLevel j up ∧ sineLevel (k + 40) up = -sineLevel (j + 40) up := by
  have same {x y : Nat} (parts : x % 160 = y % 160) (up : Bool) : sineLevel x up = sineLevel y up := by
    rw [← sineLevel_mod x, parts, sineLevel_mod]
  by_cases first : k % 160 < 80
  · exact ⟨k % 160, first, .inl fun up => ⟨same (by omega) up, same (by omega) up⟩⟩
  · refine ⟨k % 160 - 80, by omega, .inr fun up => ⟨?_, ?_⟩⟩
    · rw [← sineLevel_half]; exact same (by omega) up
    · rw [← sineLevel_half]; exact same (by omega) up

theorem sineLevel_natAbs_le (k : Nat) (up : Bool) : (sineLevel k up).natAbs ≤ 8192 := by
  obtain ⟨j, first, equal | negative⟩ := sineLevel_fold k
  · rw [(equal up).1]; exact (sineLevel_firstHalf j first up).1
  · rw [(negative up).1, Int.natAbs_neg]; exact (sineLevel_firstHalf j first up).1

/-- Sine and cosine. -/
theorem sineLevel_squares (k : Nat) (up up' : Bool) :
    ((sineLevel k up) ^ 2 + (sineLevel (k + 40) up') ^ 2 - 8192 ^ 2).natAbs ≤ 24000 := by
  obtain ⟨j, first, equal | negative⟩ := sineLevel_fold k
  · rw [(equal up).1, (equal up').2]; exact (sineLevel_firstHalf j first up).2 up'
  · rw [(negative up).1, (negative up').2, neg_sq, neg_sq]; exact (sineLevel_firstHalf j first up).2 up'

theorem sineLevel_zero {k : Nat} (up : Bool) (zero : k % 80 = 0) : sineLevel k up = 0 := by
  unfold sineLevel
  dsimp only
  rw [zero]
  simp [sineTable]

theorem sineLevel_crest {k : Nat} (up : Bool) (crest : k % 160 = 40) : sineLevel k up = 8192 := by
  rw [← sineLevel_mod, crest]
  cases up <;> rfl

theorem sineLevel_trough {k : Nat} (up : Bool) (trough : k % 160 = 120) : sineLevel k up = -8192 := by
  rw [← sineLevel_mod, trough]
  cases up <;> rfl

/-- A sample is the level of the sine, in two's complement. -/
theorem toneSample_toInt (d n : Nat) :
    (toneSample d n).toInt = sineLevel (n * (12 + 3 * d)) (Config.toneRoundsUp (toneHertz d) n) := by
  have bound := sineLevel_natAbs_le (n * (12 + 3 * d)) (Config.toneRoundsUp (toneHertz d) n)
  exact BitVec.toInt_ofInt_eq_self (by decide) (by omega) (by omega)

/-- R151: the samples of a tone are those of its sine. -/
theorem toneSample_sine (d n : Nat) :
    (toneSample d n).toInt.natAbs ≤ 8192 ∧
    (n * (12 + 3 * d) % 80 = 0 → toneSample d n = 0) ∧
    (n * (12 + 3 * d) % 160 = 40 → (toneSample d n).toInt = 8192) ∧
    (n * (12 + 3 * d) % 160 = 120 → (toneSample d n).toInt = -8192) ∧
    (∀ k, k * (12 + 3 * d) % 160 = (n * (12 + 3 * d) + 40) % 160 →
      ((toneSample d n).toInt ^ 2 + (toneSample d k).toInt ^ 2 - 8192 ^ 2).natAbs ≤ 24000) ∧
    toneHertz d * 160 = (12 + 3 * d) * 8000 := by
  rw [toneSample_toInt]
  refine ⟨sineLevel_natAbs_le _ _, fun zero => ?_, sineLevel_crest _, sineLevel_trough _, fun k quarter => ?_, ?_⟩
  · unfold toneSample
    rw [sineLevel_zero _ zero]
    rfl
  · rw [toneSample_toInt, ← sineLevel_mod (k * _), quarter, sineLevel_mod]
    exact sineLevel_squares _ _ _
  · unfold toneHertz
    omega

/-! ## The burst as it runs -/

section
variable {s : State} {r : BurstRequest} {d : Dest}

/-- R142, R151: what a destination of the burst sends. -/
theorem destSample_burst (i : VoiceIn) (overlay : (s.csw.slot d).overlay = some .ident) :
    destSample s i d =
      if s.csw.ident.tone.isSome then
        toneSample (s.csw.ident.toneDigit.getD 0) ((s.now - s.csw.ident.since) / sampleTime)
      else 0 := by
  unfold destSample destHears
  dsimp only
  rw [overlay]
  dsimp only
  cases s.csw.ident.tone.isSome <;> rfl

theorem toneDigit_of (running : s.csw.ident.running = some r) :
    s.csw.ident.toneDigit =
      if s.csw.ident.inTone then some (s.csw.ident.digits.getD (s.csw.ident.digit - 1) 0) else none := by
  unfold Ident.toneDigit
  rw [running]
  rfl

/-- R151: the tone of a digit ends. -/
theorem toneEnds_due (running : s.csw.ident.running = some r) (tone : s.csw.ident.inTone = true)
    (due : s.csw.ident.since + ms 70 ≤ s.now) :
    toneEnds s = { s with csw := { s.csw with ident := { s.csw.ident with inTone := false, since := s.now } } } := by
  have runs : s.csw.ident.running.isSome = true := by rw [running]; rfl
  exact if_pos ⟨runs, tone, due⟩

/-- R151: the gap of a digit ends. -/
theorem toneGapEnds_due (running : s.csw.ident.running = some r) (gap : s.csw.ident.inTone = false)
    (due : s.csw.ident.since + ms 50 ≤ s.now) :
    toneGapEnds s =
      if s.csw.ident.digit < 8 then
        { s with
          csw := { s.csw with ident := { s.csw.ident with digit := s.csw.ident.digit + 1, inTone := true, since := s.now } } }
      else burstEnds r s := by
  have runs : toneGapEnds s =
      if !s.csw.ident.inTone ∧ s.csw.ident.since + toneGap ≤ s.now then
        if s.csw.ident.digit < 8 then
          s.updCsw fun c =>
            { c with ident := { c.ident with digit := s.csw.ident.digit + 1, inTone := true, since := s.now } }
        else burstEnds r s
      else s := by
    unfold toneGapEnds
    dsimp only
    rw [running]
  have ended : (!s.csw.ident.inTone) = true ∧ s.csw.ident.since + toneGap ≤ s.now := ⟨by rw [gap]; rfl, due⟩
  exact runs.trans (if_pos ended)

/-- R151: the burst ends, with none waiting. -/
theorem burstEnds_alone (waiting : s.csw.ident.waiting = none) (calm : s.carriageWaits r.dest = false) :
    burstEnds r s =
      { s with
        csw :=
          { s.csw with
            modTx := s.csw.modTx.set r.dest { s.csw.modTx.get r.dest with overlay := none },
            ident := { s.csw.ident with running := none } },
        out := s.out ++ if (s.car r.dest).isSome then [.signal (.carriage r.dest) (.modTx r.dest) .burst .completed] else [] } := by
  have kept (u : State) (car : u.car r.dest = s.car r.dest) : holdLineAgain r.dest u = u := by
    have waits : u.carriageWaits r.dest = false := by unfold State.carriageWaits; rw [car]; exact calm
    unfold holdLineAgain
    rw [waits]
    rfl
  unfold burstEnds
  dsimp only
  rw [show (setOverlay (.modTx r.dest) none s).car r.dest = s.car r.dest from rfl]
  cases (s.car r.dest).isSome with
  | true =>
    rw [if_pos rfl, kept ((setOverlay (.modTx r.dest) none s).emit _) rfl]
    dsimp only [setOverlay, State.updCsw, State.emit, Switch.setSlot, Switch.slot]
    rw [waiting]
    rfl
  | false =>
    rw [if_neg Bool.false_ne_true]
    dsimp only [setOverlay, State.updCsw, Switch.setSlot, Switch.slot]
    rw [waiting]
    simp

end

/-- Settles O24: the sine of a digit's tone, the samples of the burst, and the ends of its tones and gaps. -/
theorem identityBurstTiming : Obligations.IdentityBurstTiming := by
  unfold Obligations.IdentityBurstTiming
  refine ⟨toneSample_sine, fun s i d r overlay running => ⟨fun tone => ?_, fun gap => ?_⟩, fun t r s reset running => ⟨?_, ?_, ?_⟩⟩
  · have digit := (toneDigit_of running).trans (if_pos tone)
    have sends : s.csw.ident.tone.isSome = true := by unfold Ident.tone; rw [digit]; rfl
    rw [destSample_burst i overlay, if_pos sends, digit]
    rfl
  · have digit := (toneDigit_of running).trans (if_neg (by rw [gap]; decide))
    have silent : s.csw.ident.tone.isSome = false := by unfold Ident.tone; rw [digit]; rfl
    rw [destSample_burst i overlay, if_neg (by rw [silent]; decide)]
  · exact fun tone due => exec_local (c := .identToneEnd t) rfl reset (toneEnds_due (s := startEvent t s) running tone due)
  · exact fun gap due more => exec_local (c := .identGapEnd t) rfl reset
      ((toneGapEnds_due (s := startEvent t s) running gap due).trans (if_pos more))
  · intro gap due last waiting calm
    refine exec_local (c := .identGapEnd t) rfl reset ((toneGapEnds_due (s := startEvent t s) running gap due).trans
      ((if_neg ?_).trans (burstEnds_alone (s := startEvent t s) waiting calm)))
    show ¬ s.csw.ident.digit < 8
    omega

end Sys2Proof.Machine

/-! # What destinations hear and halves send, and the ends of holds and prompts (08, 8.1 to 8.3; 07, 7.1 to 7.3) -/

namespace Sys2Proof.Machine

section
variable {s : State} {d : Dest} {src : Source}

/-! ## Destinations (R141, R142) -/

/-- R142: under a prompt, a destination hears its player. -/
theorem destHears_player {p : PlayerId} (fixed : playerDest p = d) (overlay : (s.csw.slot d).overlay = some .player) :
    destHears s d = playerHeard (s.csw.players.get p) := by
  subst fixed
  unfold destHears
  dsimp only
  rw [overlay]
  cases p <;> rfl

/-- R141: a player in PLAYING delivers its prompt. -/
theorem playerHeard_playing {x : Player} {q : Prompt} (playing : x.state = .playing) (prompt : x.prompt = some q) :
    playerHeard x = .prompt q := by
  unfold playerHeard; rw [playing, prompt]

/-- R141: a player that does not play delivers silence. -/
theorem playerHeard_silent {x : Player} (silent : x.state ≠ .playing) : playerHeard x = .silence := by
  unfold playerHeard
  split
  next playing _ => exact absurd playing silent
  next => rfl

/-- R142: without an overlay, a destination hears its base route once its hold has passed. -/
theorem destHears_base (overlay : (s.csw.slot d).overlay = none) (base : (s.csw.slot d).base = some src) :
    (∀ h, (s.csw.slot d).holdUntil = some h → s.now < h → destHears s d = .silence) ∧
      ((∀ h, (s.csw.slot d).holdUntil = some h → h ≤ s.now) → destHears s d = sourceHeard s src) := by
  unfold destHears
  dsimp only
  rw [overlay, base]
  dsimp only
  refine ⟨fun h held early => ?_, fun passed => ?_⟩
  · rw [held]; exact if_pos early
  · cases held : (s.csw.slot d).holdUntil with
    | none => rfl
    | some h => exact if_neg (Nat.not_lt.mpr (passed h held))

/-- What a destination hears, by its overlay, hold and base route. -/
theorem destHears_cases (d : Dest) (s : State) :
    ((s.csw.slot d).overlay = some .ident → destHears s d = if s.csw.ident.tone.isSome then .burst else .silence) ∧
    (∀ p, playerDest p = d → (s.csw.slot d).overlay = some .player →
      (∀ q, (s.csw.players.get p).state = .playing → (s.csw.players.get p).prompt = some q →
        destHears s d = .prompt q) ∧
      ((s.csw.players.get p).state ≠ .playing → destHears s d = .silence)) ∧
    ((s.csw.slot d).overlay = none → (s.csw.slot d).base = none → destHears s d = .silence) ∧
    ∀ src, (s.csw.slot d).overlay = none → (s.csw.slot d).base = some src →
      (∀ h, (s.csw.slot d).holdUntil = some h → s.now < h → destHears s d = .silence) ∧
      ((∀ h, (s.csw.slot d).holdUntil = some h → h ≤ s.now) →
        (src = .mic → destHears s d = .source .mic) ∧ (src = .silence → destHears s d = .silence) ∧
        (∀ m, src = .modRx m → destHears s d = if (s.mod m).power then .source src else .silence) ∧
        ∀ l h, src = .laneRx l h → destHears s d = if s.csw.gapMark l h then .silence else .source src) := by
  refine ⟨fun overlay => ?_, fun p fixed overlay => ⟨fun q playing prompt => ?_, fun silent => ?_⟩, fun overlay base => ?_,
    fun src overlay base => ⟨(destHears_base overlay base).1, fun passed => ?_⟩⟩
  · unfold destHears
    dsimp only
    rw [overlay]
  · rw [destHears_player fixed overlay, playerHeard_playing playing prompt]
  · rw [destHears_player fixed overlay, playerHeard_silent silent]
  · unfold destHears
    dsimp only
    rw [overlay, base]
  · rw [(destHears_base overlay base).2 passed]
    refine ⟨?_, ?_, ?_, ?_⟩
    · rintro rfl; rfl
    · rintro rfl; rfl
    · rintro m rfl; rfl
    · rintro l h rfl; rfl

/-! ## Base routes (R143, R144) -/

/-- R143: a route that is set already is left as it is. -/
theorem setRoute_same {o : Owner} (base : (s.csw.slot d).base = some src) : setRoute d src o s = s := if_pos base

/-- R143, R144: a new route; one from a lane is held. -/
theorem setRoute_new {o : Owner} (other : (s.csw.slot d).base ≠ some src) :
    setRoute d src o s = { s with csw := (setRoute d src o s).csw } ∧
      (setRoute d src o s).csw.slot d =
        { s.csw.slot d with
          base := some src, owner := some o,
          holdUntil := if src.isLane then some (s.now + holdTime) else none } ∧
      (∀ e, e ≠ d → (setRoute d src o s).csw.slot e = s.csw.slot e) ∧
      (setRoute d src o s).csw.players = s.csw.players ∧ (setRoute d src o s).csw.ident = s.csw.ident := by
  have set : setRoute d src o s = s.updCsw fun c =>
      c.setSlot d
        { s.csw.slot d with
          base := some src, owner := some o, holdUntil := if src.isLane then some (s.now + holdTime) else none } := if_neg other
  rw [set]
  exact ⟨rfl, Switch.slot_setSlot_self _ _ _, fun e apart => Switch.slot_setSlot_ne _ _ apart, Switch.setSlot_players _ _ _,
    Switch.setSlot_ident _ _ _⟩

/-- R144: a hold that has passed is cleared. -/
theorem endHold_due {h : Time} (held : (s.csw.slot d).holdUntil = some h) (due : h ≤ s.now) :
    endHold d s = { s with csw := s.csw.setSlot d { s.csw.slot d with holdUntil := none } } := by
  have passed : s.due (s.csw.slot d).holdUntil = true := by rw [held]; exact decide_eq_true due
  exact if_pos passed

theorem Switch.setSlot_gaps (c : Switch) (d : Dest) (x : Slot) :
    (c.setSlot d x).gapA = c.gapA ∧ (c.setSlot d x).gapB = c.gapB := by
  cases d <;> exact ⟨rfl, rfl⟩

end

/-! ## Halves (R126, R130) -/

/-- The half that the owner of a lane drives (07, 7.1). -/
def Owner.half : Owner → Half
  | .origin => .a
  | .laneTest => .a
  | .carriage _ => .b

section
variable {s : State} {l : Lane} {o : Owner}

theorem LaneEntry.driven_half {x : LaneEntry} (own : x.occupancy = .own) (owner : x.owner = some o) :
    x.driven = some o.half := by
  unfold LaneEntry.driven
  rw [own, owner]
  cases o <;> rfl

/-- R126: the half that is not driven sends nothing. -/
theorem halfSends_other (own : (s.lane l).occupancy = .own) (owner : (s.lane l).owner = some o) :
    halfSends s l (otherHalf o.half) = .nothing := by
  unfold halfSends
  dsimp only
  rw [LaneEntry.driven_half own owner]
  exact if_pos (by cases o <;> simp [Owner.half, otherHalf])

/-- R126: what the driven half sends. -/
theorem halfSends_driven (reset : s.inReset = false) (own : (s.lane l).occupancy = .own)
    (owner : (s.lane l).owner = some o) :
    halfSends s l o.half =
      if (s.engine (engineOf o)).generator = .running ∧ (s.engine (engineOf o)).lane = some l then .pattern
      else if o = .laneTest then .nothing
      else .stream (destHears s (.lane l)) := by
  unfold halfSends
  dsimp only
  rw [LaneEntry.driven_half own owner, reset, owner]
  exact if_neg (by simp)

/-- R130: the word of a call probe's generator at the present time. -/
theorem patternWord_call {n : Nat} (call : o ≠ .laneTest) (from_ : (s.engine (engineOf o)).genStart + n * wordTime ≤ s.now)
    (until_ : s.now < (s.engine (engineOf o)).genStart + (n + 1) * wordTime) :
    patternWord s o = (nextWord (freeRun (32 * n) (s.engine (engineOf o)).genSeed)).1 := by
  have began : (s.engine (engineOf o)).genStart ≤ s.now := Nat.le_of_add_right_le from_
  have word : (s.now - (s.engine (engineOf o)).genStart) / wordTime = n :=
    Nat.div_eq_of_lt_le (Nat.le_sub_of_add_le' from_) (Nat.sub_lt_left_of_lt_add began until_)
  unfold patternWord
  dsimp only
  rw [word]
  cases o with
  | origin => rfl
  | carriage m => rfl
  | laneTest => exact absurd rfl call

/-- R126, R130: what the halves of a lane send that the station holds OWN. -/
theorem halfSends_cases (reset : s.inReset = false) (own : (s.lane l).occupancy = .own) (owner : (s.lane l).owner = some o) :
    halfSends s l (otherHalf o.half) = .nothing ∧
    ((s.engine (engineOf o)).generator = .running → (s.engine (engineOf o)).lane = some l →
      halfSends s l o.half = .pattern ∧
      ∀ (n : Nat) (s1 : State) (i0 i1 : VoiceIn), o ≠ .laneTest →
        (s.engine (engineOf o)).genStart + n * wordTime ≤ s.now →
        s.now < (s.engine (engineOf o)).genStart + (n + 1) * wordTime →
        halfWord s s1 i0 i1 l o.half = some (nextWord (freeRun (32 * n) (s.engine (engineOf o)).genSeed)).1) ∧
    (((s.engine (engineOf o)).generator ≠ .running ∨ (s.engine (engineOf o)).lane ≠ some l) →
      (o = .laneTest → halfSends s l o.half = .nothing) ∧
      (o ≠ .laneTest →
        halfSends s l o.half = .stream (destHears s (.lane l)) ∧
        ∀ (s1 : State) (i0 i1 : VoiceIn),
          halfWord s s1 i0 i1 l o.half = some (destSample s1 i1 (.lane l) ++ destSample s i0 (.lane l)))) := by
  have driven := halfSends_driven reset own owner
  refine ⟨halfSends_other own owner, fun running lane => ?_, fun idle => ⟨fun test => ?_, fun call => ?_⟩⟩
  · have pattern := driven.trans (if_pos ⟨running, lane⟩)
    refine ⟨pattern, fun n s1 i0 i1 call from_ until_ => ?_⟩
    unfold halfWord
    rw [pattern]
    dsimp only
    rw [owner]
    exact congrArg some (patternWord_call call from_ until_)
  · exact driven.trans ((if_neg (by tauto)).trans (if_pos test))
  · have stream := driven.trans ((if_neg (by tauto)).trans (if_neg call))
    refine ⟨stream, fun s1 i0 i1 => ?_⟩
    unfold halfWord
    rw [stream]
    rfl

end

/-! ## The ends of prompts (R147) -/

section
variable {s : State} {p : PlayerId} {o : Owner} {q : Prompt}

/-- R147: the players alone change. -/
theorem slot_withPlayers (c : Switch) (x : PerPlayer Player) (d : Dest) : ({ c with players := x } : Switch).slot d = c.slot d := by
  cases d <;> rfl

/-- R147: one player and one destination change. -/
theorem Switch.ended_spec (p : PlayerId) (q : PerPlayer Player) (x : Player) (z : Slot) (c : Switch) :
    (({ c with players := q.set p x } : Switch).setSlot (playerDest p) z).players.get p = x ∧
    (∀ i, i ≠ p → (({ c with players := q.set p x } : Switch).setSlot (playerDest p) z).players.get i = q.get i) ∧
    (({ c with players := q.set p x } : Switch).setSlot (playerDest p) z).slot (playerDest p) = z ∧
    ∀ d, d ≠ playerDest p → (({ c with players := q.set p x } : Switch).setSlot (playerDest p) z).slot d = c.slot d := by
  rw [Switch.setSlot_players]
  exact ⟨PerPlayer.get_set_self _ _ _, fun i other => PerPlayer.get_set_ne _ _ _ _ other, Switch.slot_setSlot_self _ _ _,
    fun d other => (Switch.slot_setSlot_ne _ _ other).trans (slot_withPlayers _ _ _)⟩

/-- R147: a prompt that ends with a signal to its owner. -/
theorem endPrompt_signals {why : SignalReason} (owner : (s.csw.players.get p).owner = some o)
    (prompt : (s.csw.players.get p).prompt = some q) :
    endPrompt p why s =
      { s with
        csw :=
          ({ s.csw with
             players := s.csw.players.set p
               { s.csw.players.get p with state := .idle, owner := none, prompt := none } } : Switch).setSlot (playerDest p)
            { s.csw.slot (playerDest p) with overlay := none },
        out := s.out ++ [.signal o (playerDest p) (.prompt q) why] } := by
  unfold endPrompt
  dsimp only
  rw [owner, prompt]
  unfold signalOwner setOverlay idlePlayer State.emit State.updCsw
  dsimp only
  rw [slot_withPlayers]

/-- R147: the play of a prompt reaches its duration, the count of plays below 15. -/
theorem playEnds_due (prompt : (s.csw.players.get p).prompt = some q) (playing : (s.csw.players.get p).state = .playing)
    (due : (s.csw.players.get p).since + promptTime q ≤ s.now) (few : (s.csw.players.get p).playsDone.toNat < 15) :
    ((s.csw.players.get p).playsDone + 1 = (s.csw.players.get p).repeats →
      playEnds p s = endPrompt p .completed (s.updCsw fun c =>
        { c with
          players := c.players.set p
            { s.csw.players.get p with playsDone := (s.csw.players.get p).playsDone + 1 } })) ∧
    ((s.csw.players.get p).playsDone + 1 ≠ (s.csw.players.get p).repeats →
      playEnds p s = s.updCsw fun c =>
        { c with
          players := c.players.set p
            { s.csw.players.get p with
              playsDone := (s.csw.players.get p).playsDone + 1,
              state := if (s.csw.players.get p).gap = 0 then .playing else .gap, since := s.now } }) := by
  have below : (s.csw.players.get p).playsDone ≠ BitVec.allOnes 4 := by
    intro all; rw [all] at few; exact absurd few (by decide)
  have more : (s.csw.players.get p).playsDone + 1 ≠ 0 := by
    intro zero
    have := congrArg BitVec.toNat zero
    rw [BitVec.toNat_add] at this
    simp at this
    omega
  have whole : playEnds p s =
      if (s.csw.players.get p).repeats ≠ 0 ∧ (s.csw.players.get p).playsDone + 1 = (s.csw.players.get p).repeats then
        endPrompt p .completed (s.updCsw fun c =>
          { c with
            players := c.players.set p { s.csw.players.get p with playsDone := (s.csw.players.get p).playsDone + 1 } })
      else
        s.updCsw fun c =>
          { c with
            players := (c.players.set p
                { s.csw.players.get p with playsDone := (s.csw.players.get p).playsDone + 1 }).set p
              { s.csw.players.get p with
                playsDone := (s.csw.players.get p).playsDone + 1,
                state := if (s.csw.players.get p).gap = 0 then .playing else .gap, since := s.now } } := by
    unfold playEnds nextPlays
    dsimp only
    rw [prompt, playing]
    dsimp only
    rw [if_pos ⟨rfl, decide_eq_true due⟩, if_neg below, if_neg below]
    rfl
  rw [whole]
  refine ⟨fun last => if_pos ⟨fun zero => more (last.trans zero), last⟩, fun again => (if_neg fun h => again h.2).trans ?_⟩
  simp only [State.updCsw, PerPlayer.set_set]

/-- R147: the gap between repeats ends. -/
theorem playGapEnds_due (gap : (s.csw.players.get p).state = .gap)
    (due : (s.csw.players.get p).since + (s.csw.players.get p).gap ≤ s.now) :
    playGapEnds p s =
      { s with
        csw :=
          { s.csw with players := s.csw.players.set p { s.csw.players.get p with state := .playing, since := s.now } } } :=
  if_pos ⟨gap, due⟩

end

/-- Settles O23: what is heard and sent, and the ends of a hold, a play and a gap. -/
theorem holdsAndPromptsEnd : Obligations.HoldsAndPromptsEnd := by
  unfold Obligations.HoldsAndPromptsEnd
  refine ⟨destHears_cases, fun d src o s => ⟨setRoute_same, fun other => ?_⟩, fun l o s reset own owner => ?_,
    fun t h d s reset held due => ?_,
    fun t p o q s reset owner prompt => ⟨fun playing due few => ⟨fun last => ?_, fun again => ?_⟩, ?_⟩⟩
  · cases src <;> exact setRoute_new other
  · exact halfSends_cases reset own owner
  · refine ⟨_, exec_local (c := .holdUntilEnd t d) rfl reset (endHold_due (s := startEvent t s) held due), rfl,
      Switch.slot_setSlot_self _ _ _, fun e apart => Switch.slot_setSlot_ne _ _ apart, Switch.setSlot_players _ _ _,
      Switch.setSlot_ident _ _ _, (Switch.setSlot_gaps _ _ _).1, (Switch.setSlot_gaps _ _ _).2⟩
  · have plays := (playEnds_due (s := startEvent t s) prompt playing due few).1 last
    have ends := endPrompt_signals (p := p) (o := o) (q := q) (why := .completed) (s := (startEvent t s).updCsw fun c =>
      { c with
        players := c.players.set p { s.csw.players.get p with playsDone := (s.csw.players.get p).playsDone + 1 } })
      ((congrArg Player.owner (PerPlayer.get_set_self _ _ _)).trans owner)
      ((congrArg Player.prompt (PerPlayer.get_set_self _ _ _)).trans prompt)
    obtain ⟨player, others, slot, slots⟩ := Switch.ended_spec p (s.csw.players.set p
      { s.csw.players.get p with playsDone := (s.csw.players.get p).playsDone + 1 }) _ _ s.csw
    refine ⟨_, exec_local (c := .promptPlayEnd t p) rfl reset (plays.trans ends), rfl, rfl, congrArg Player.state player,
      congrArg Player.owner player, congrArg Player.prompt player, fun i other => ?_, slot.trans ?_, slots⟩
    · exact (others i other).trans (PerPlayer.get_set_ne _ _ _ _ other)
    · exact congrArg (fun x : Slot => { x with overlay := none }) (slot_withPlayers s.csw _ _)
  · exact exec_local (c := .promptPlayEnd t p) rfl reset ((playEnds_due (s := startEvent t s) prompt playing due few).2 again)
  · exact fun gap due => exec_local (c := .promptGapEnd t p) rfl reset (playGapEnds_due (s := startEvent t s) gap due)

end Sys2Proof.Machine
